-- ==== Sys2Proof/Word.lean ====
section
/-! DEFINITION. The two widths of the machine: a byte and an address. -/

namespace Sys2Proof

/-- A data byte: A, X, Y, SP, a memory byte, an operand byte (R7, R20). -/
abbrev Byte := BitVec 8

/-- An address, wide enough for the wider bus (R5, R27). On the 16-bit bus every address the machine
forms is below 2^16 (`BusWidth.addr`), and `Sys2Proof.Inv` says so of PC. DESIGN CHOICE (log 3): safe. -/
abbrev Addr := BitVec 24

end Sys2Proof
end

