-- ==== Sys2Proof/Config.lean ====
section
/-! DEFINITION. The implementation parameters of 00_scope.md R6, as plain data, with their default values. -/

namespace Sys2Proof

/-- `ADDR_BITS`: the address bus is 16 or 24 bits wide (R6, D1). -/
inductive BusWidth
  | bits16
  | bits24
  deriving DecidableEq, Repr

/-- `REL_MODE`: how a branch's displacement byte is read (R6, R87, D12). -/
inductive RelMode
  | twosComplement
  | signMagnitude
  deriving DecidableEq, Repr

/-- `UNREC_PC_ADVANCE`, 0 or 1: what an unrecognised opcode adds to PC (R6, R116, D13). -/
inductive UnrecAdvance
  | zero
  | one
  deriving DecidableEq, Repr

/-- `BRK_PC_OFFSET`, 1 or 2: the address BRK pushes, counted from its own opcode byte (R6, R250, D14). -/
inductive BrkOffset
  | one
  | two
  deriving DecidableEq, Repr

/-- The parameters of R6. `AB` and `MAX_MEM` are derived (`BusWidth.bytes`, `BusWidth.size`); `MEM0` is the
contents of the state's memory. They are fixed for one machine and no instruction changes them (R21).
DESIGN CHOICE (log 1): the state carries them, so that one `step` is every machine R6 admits. Safe. -/
structure Config where
  /-- `ADDR_BITS` (D1) -/
  bus : BusWidth
  /-- `RAM_END`, and `RAM_END_24` on the wide bus (D3) -/
  ramEnd : Nat
  /-- `SYS_BASE`, and `SYS_BASE_24` on the wide bus (D3) -/
  sysBase : Nat
  /-- `IO_BASE`, `IO_END`: the optional IO window, first and last address (R54) -/
  ioWindow : Option (Nat × Nat)
  /-- `WRITABLE`, as the list of the writable ranges, first and last address of each (R57).
  DESIGN CHOICE (log 8): a list, since the state is plain data; every predicate on addresses is one. Safe. -/
  writable : List (Nat × Nat)
  /-- `RESET_VEC` (D9) -/
  resetVec : Nat
  /-- `BRK_VEC` (D9) -/
  brkVec : Nat
  /-- `RESET_SP` (D18) -/
  resetSp : Byte
  relMode : RelMode
  unrecPcAdvance : UnrecAdvance
  brkPcOffset : BrkOffset
  /-- `BRK_HALTS` (D16) -/
  brkHalts : Bool
  /-- `CYCLE_BITS`, `none` for an unbounded counter (R38, D24) -/
  cycleBits : Option Nat
  deriving DecidableEq, Repr

/-- Every parameter at the default R6 gives it. -/
def Config.standard : Config where
  bus := .bits16
  ramEnd := 0x7FFF
  sysBase := 0xFF00
  ioWindow := none
  writable := [(0x0000, 0x7FFF)]
  resetVec := 0xFFFC
  brkVec := 0xFFFE
  resetSp := 0xFF
  relMode := .twosComplement
  unrecPcAdvance := .zero
  brkPcOffset := .one
  brkHalts := true
  cycleBits := none

/-- The value an operand of kind `None` would have. R131 says it is undefined and that no instruction asks
for it; nothing is known of this constant (log 11). -/
opaque Config.valueOfNoOperand : Byte

end Sys2Proof
end

