-- ==== Sys2Proof/Machine/Bits.lean ====
section
/-! DEFINITION. Address arithmetic, byte order, the displacement of a branch, and the functions of the parameters. -/

namespace Sys2Proof

/-- `ADDR_BITS` as a number (R6). -/
def BusWidth.bits : BusWidth → Nat
  | .bits16 => 16
  | .bits24 => 24

/-- `AB`, the bytes of an address (R6). -/
def BusWidth.bytes : BusWidth → Nat
  | .bits16 => 2
  | .bits24 => 3

/-- `MAX_MEM = 2^ADDR_BITS` (R6, R50). -/
def BusWidth.size (bus : BusWidth) : Nat := 2 ^ bus.bits

/-- `addr(v) = v mod 2^ADDR_BITS` (R8). -/
def BusWidth.addr (bus : BusWidth) (v : Nat) : Addr := BitVec.ofNat 24 (v % bus.size)

/-- `addr` of an integer, for a target behind PC (R8, R145). -/
def BusWidth.addrOfInt (bus : BusWidth) (v : Int) : Addr := bus.addr (v % (bus.size : Int)).toNat

/-- The number a list of bytes writes, least significant byte first (R58, R60). -/
def leNat : List Byte → Nat
  | [] => 0
  | b :: bs => b.toNat + 256 * leNat bs

/-- The `n` bytes of a number, least significant byte first (R60, R86). -/
def leBytes : Nat → Nat → List Byte
  | 0, _ => []
  | n + 1, v => BitVec.ofNat 8 v :: leBytes n (v / 256)

/-- A bit as a number (R9). -/
def bitNat (b : Bool) : Nat := if b then 1 else 0

/-- The signed offset of a displacement byte (R87). -/
def RelMode.disp : RelMode → Byte → Int
  | .twosComplement, r => r.toInt
  | .signMagnitude, r => if r.msb then -((r &&& 0x7F#8).toNat : Int) else ((r &&& 0x7F#8).toNat : Int)

def UnrecAdvance.toNat : UnrecAdvance → Nat
  | .zero => 0
  | .one => 1

def BrkOffset.toNat : BrkOffset → Nat
  | .one => 1
  | .two => 2

/-- `WRITABLE(a)` (R57). -/
def Config.isWritable (c : Config) (a : Addr) : Bool :=
  c.writable.any fun r => decide (r.1 ≤ a.toNat) && decide (a.toNat ≤ r.2)

/-- The cycle counter holds `CYCLE_BITS` bits, or any natural number (R38). -/
def Config.wrapCycles (c : Config) (n : Nat) : Nat :=
  match c.cycleBits with
  | none => n
  | some k => n % 2 ^ k

/-- The regions of R51 and R52. -/
inductive Region
  | zeroPage
  | stackPage
  | ram
  | rom
  | system
  deriving DecidableEq, Repr

/-- The region of an address (R51, R52): a classification, not separate storage (R53). -/
def Config.regionOf (c : Config) (a : Addr) : Region :=
  if a.toNat ≤ 0xFF then .zeroPage
  else if a.toNat ≤ 0x1FF then .stackPage
  else if a.toNat ≤ c.ramEnd then .ram
  else if a.toNat < c.sysBase then .rom
  else .system

/-- Is the address in the IO window (R54)? The engine reads and writes it as any other RAM. -/
def Config.inIoWindow (c : Config) (a : Addr) : Bool :=
  match c.ioWindow with
  | none => false
  | some (lo, hi) => decide (lo ≤ a.toNat) && decide (a.toNat ≤ hi)

end Sys2Proof
end

