-- ==== Sys2Proof/Syntax.lean ====
section
/-! DEFINITION. The syntax: mnemonics, mode tags, and the instructions, one constructor per row of the opcode table. -/

namespace Sys2Proof

/-- The 56 mnemonics of R95. -/
inductive Mnemonic
  | lda | ldx | ldy | sta | stx | sty
  | adc | sbc | and | ora | eor | cmp | cpx | cpy | bit
  | asl | lsr | rol | ror | inc | dec | inx | iny | dex | dey
  | tax | tay | txa | tya | tsx | txs | clc | sec | cli | sei | cld | sed | clv | pha | pla | php | plp | nop
  | bcc | bcs | beq | bne | bmi | bpl | bvc | bvs | jmp | jsr | rts | brk | rti
  deriving DecidableEq, Repr

/-- The thirteen addressing modes (R4, R133 to R145). -/
inductive ModeTag
  | implied | accumulator | immediate | zeroPage | zeroPageX | zeroPageY
  | absolute | absoluteX | absoluteY | indirect | indirectX | indirectY | relative
  deriving DecidableEq, Repr

/-- The instructions: one constructor per row of R95, carrying the raw operand: the operand byte (an immediate `v`,
a zero-page address `b`, a displacement `r`) or the `AB`-byte operand address `a` (R81). -/
inductive Instr
  -- Loads and stores (42_load_store.md)
  | ldaImm (v : Byte)
  | ldaZp (b : Byte)
  | ldaZpX (b : Byte)
  | ldaAbs (a : Addr)
  | ldaAbsX (a : Addr)
  | ldaAbsY (a : Addr)
  | ldaIndX (b : Byte)
  | ldaIndY (b : Byte)
  | ldxImm (v : Byte)
  | ldxZp (b : Byte)
  | ldxZpY (b : Byte)
  | ldxAbs (a : Addr)
  | ldxAbsY (a : Addr)
  | ldyImm (v : Byte)
  | ldyZp (b : Byte)
  | ldyZpX (b : Byte)
  | ldyAbs (a : Addr)
  | ldyAbsX (a : Addr)
  | staZp (b : Byte)
  | staZpX (b : Byte)
  | staAbs (a : Addr)
  | staAbsX (a : Addr)
  | staAbsY (a : Addr)
  | staIndX (b : Byte)
  | staIndY (b : Byte)
  | stxZp (b : Byte)
  | stxZpY (b : Byte)
  | stxAbs (a : Addr)
  | styZp (b : Byte)
  | styZpX (b : Byte)
  | styAbs (a : Addr)
  -- Arithmetic, logic, compare and bit test (43_alu.md)
  | adcImm (v : Byte)
  | adcZp (b : Byte)
  | adcZpX (b : Byte)
  | adcAbs (a : Addr)
  | adcAbsX (a : Addr)
  | adcAbsY (a : Addr)
  | adcIndX (b : Byte)
  | adcIndY (b : Byte)
  | sbcImm (v : Byte)
  | sbcZp (b : Byte)
  | sbcZpX (b : Byte)
  | sbcAbs (a : Addr)
  | sbcAbsX (a : Addr)
  | sbcAbsY (a : Addr)
  | sbcIndX (b : Byte)
  | sbcIndY (b : Byte)
  | andImm (v : Byte)
  | andZp (b : Byte)
  | andZpX (b : Byte)
  | andAbs (a : Addr)
  | andAbsX (a : Addr)
  | andAbsY (a : Addr)
  | andIndX (b : Byte)
  | andIndY (b : Byte)
  | oraImm (v : Byte)
  | oraZp (b : Byte)
  | oraZpX (b : Byte)
  | oraAbs (a : Addr)
  | oraAbsX (a : Addr)
  | oraAbsY (a : Addr)
  | oraIndX (b : Byte)
  | oraIndY (b : Byte)
  | eorImm (v : Byte)
  | eorZp (b : Byte)
  | eorZpX (b : Byte)
  | eorAbs (a : Addr)
  | eorAbsX (a : Addr)
  | eorAbsY (a : Addr)
  | eorIndX (b : Byte)
  | eorIndY (b : Byte)
  | cmpImm (v : Byte)
  | cmpZp (b : Byte)
  | cmpZpX (b : Byte)
  | cmpAbs (a : Addr)
  | cmpAbsX (a : Addr)
  | cmpAbsY (a : Addr)
  | cmpIndX (b : Byte)
  | cmpIndY (b : Byte)
  | cpxImm (v : Byte)
  | cpxZp (b : Byte)
  | cpxAbs (a : Addr)
  | cpyImm (v : Byte)
  | cpyZp (b : Byte)
  | cpyAbs (a : Addr)
  | bitZp (b : Byte)
  | bitAbs (a : Addr)
  -- Shifts, rotates, increments and decrements (44_shift_incdec.md)
  | aslAcc
  | aslZp (b : Byte)
  | aslZpX (b : Byte)
  | aslAbs (a : Addr)
  | aslAbsX (a : Addr)
  | lsrAcc
  | lsrZp (b : Byte)
  | lsrZpX (b : Byte)
  | lsrAbs (a : Addr)
  | lsrAbsX (a : Addr)
  | rolAcc
  | rolZp (b : Byte)
  | rolZpX (b : Byte)
  | rolAbs (a : Addr)
  | rolAbsX (a : Addr)
  | rorAcc
  | rorZp (b : Byte)
  | rorZpX (b : Byte)
  | rorAbs (a : Addr)
  | rorAbsX (a : Addr)
  | incZp (b : Byte)
  | incZpX (b : Byte)
  | incAbs (a : Addr)
  | incAbsX (a : Addr)
  | decZp (b : Byte)
  | decZpX (b : Byte)
  | decAbs (a : Addr)
  | decAbsX (a : Addr)
  | inx
  | iny
  | dex
  | dey
  -- Transfers, flags, stack and NOP (45_transfer_flag_stack.md)
  | tax
  | tay
  | txa
  | tya
  | tsx
  | txs
  | clc
  | sec
  | cli
  | sei
  | cld
  | sed
  | clv
  | pha
  | pla
  | php
  | plp
  | nop
  -- Branches, jumps, subroutines, break and return (46_control_flow.md)
  | bcc (r : Byte)
  | bcs (r : Byte)
  | beq (r : Byte)
  | bne (r : Byte)
  | bmi (r : Byte)
  | bpl (r : Byte)
  | bvc (r : Byte)
  | bvs (r : Byte)
  | jmpAbs (a : Addr)
  | jmpInd (a : Addr)
  | jsr (a : Addr)
  | rts
  | brk
  | rti
  deriving DecidableEq, Repr

end Sys2Proof
end

