-- ==== Sys2Proof/Machine/Modes.lean ====
section
/-! DEFINITION. The addressing mode of each instruction, with its operand, and its length. -/

namespace Sys2Proof

/-- The modes whose operand is an address, with the raw operand of the instruction (R136 to R145). -/
inductive MemMode
  | zeroPage (b : Byte)
  | zeroPageX (b : Byte)
  | zeroPageY (b : Byte)
  | absolute (a : Addr)
  | absoluteX (a : Addr)
  | absoluteY (a : Addr)
  | indirect (a : Addr)
  | indirectX (b : Byte)
  | indirectY (b : Byte)
  | relative (r : Byte)
  deriving DecidableEq, Repr

/-- An addressing mode together with the raw operand it consumed (R130). -/
inductive AddressingMode
  | implied
  | accumulator
  | immediate (v : Byte)
  | memory (m : MemMode)
  deriving DecidableEq, Repr

def MemMode.tag : MemMode → ModeTag
  | .zeroPage _ => .zeroPage
  | .zeroPageX _ => .zeroPageX
  | .zeroPageY _ => .zeroPageY
  | .absolute _ => .absolute
  | .absoluteX _ => .absoluteX
  | .absoluteY _ => .absoluteY
  | .indirect _ => .indirect
  | .indirectX _ => .indirectX
  | .indirectY _ => .indirectY
  | .relative _ => .relative

def AddressingMode.tag : AddressingMode → ModeTag
  | .implied => .implied
  | .accumulator => .accumulator
  | .immediate _ => .immediate
  | .memory m => m.tag

/-- `nbytes(mode)`: the operand bytes of a mode (R82). -/
def ModeTag.nbytes (bus : BusWidth) : ModeTag → Nat
  | .implied | .accumulator => 0
  | .immediate | .zeroPage | .zeroPageX | .zeroPageY | .indirectX | .indirectY | .relative => 1
  | .absolute | .absoluteX | .absoluteY | .indirect => bus.bytes

/-- Does the raw operand fit the bus: an operand address has `AB` bytes (R86). -/
def AddressingMode.fits (bus : BusWidth) : AddressingMode → Bool
  | .memory (.absolute a) => decide (a.toNat < bus.size)
  | .memory (.absoluteX a) => decide (a.toNat < bus.size)
  | .memory (.absoluteY a) => decide (a.toNat < bus.size)
  | .memory (.indirect a) => decide (a.toNat < bus.size)
  | .memory (.zeroPage _) => true
  | .memory (.zeroPageX _) => true
  | .memory (.zeroPageY _) => true
  | .memory (.indirectX _) => true
  | .memory (.indirectY _) => true
  | .memory (.relative _) => true
  | .implied => true
  | .accumulator => true
  | .immediate _ => true

/-- The mnemonic column of R95. -/
def Instr.mnemonic : Instr → Mnemonic
  | .ldaImm _ => .lda
  | .ldaZp _ => .lda
  | .ldaZpX _ => .lda
  | .ldaAbs _ => .lda
  | .ldaAbsX _ => .lda
  | .ldaAbsY _ => .lda
  | .ldaIndX _ => .lda
  | .ldaIndY _ => .lda
  | .ldxImm _ => .ldx
  | .ldxZp _ => .ldx
  | .ldxZpY _ => .ldx
  | .ldxAbs _ => .ldx
  | .ldxAbsY _ => .ldx
  | .ldyImm _ => .ldy
  | .ldyZp _ => .ldy
  | .ldyZpX _ => .ldy
  | .ldyAbs _ => .ldy
  | .ldyAbsX _ => .ldy
  | .staZp _ => .sta
  | .staZpX _ => .sta
  | .staAbs _ => .sta
  | .staAbsX _ => .sta
  | .staAbsY _ => .sta
  | .staIndX _ => .sta
  | .staIndY _ => .sta
  | .stxZp _ => .stx
  | .stxZpY _ => .stx
  | .stxAbs _ => .stx
  | .styZp _ => .sty
  | .styZpX _ => .sty
  | .styAbs _ => .sty
  | .adcImm _ => .adc
  | .adcZp _ => .adc
  | .adcZpX _ => .adc
  | .adcAbs _ => .adc
  | .adcAbsX _ => .adc
  | .adcAbsY _ => .adc
  | .adcIndX _ => .adc
  | .adcIndY _ => .adc
  | .sbcImm _ => .sbc
  | .sbcZp _ => .sbc
  | .sbcZpX _ => .sbc
  | .sbcAbs _ => .sbc
  | .sbcAbsX _ => .sbc
  | .sbcAbsY _ => .sbc
  | .sbcIndX _ => .sbc
  | .sbcIndY _ => .sbc
  | .andImm _ => .and
  | .andZp _ => .and
  | .andZpX _ => .and
  | .andAbs _ => .and
  | .andAbsX _ => .and
  | .andAbsY _ => .and
  | .andIndX _ => .and
  | .andIndY _ => .and
  | .oraImm _ => .ora
  | .oraZp _ => .ora
  | .oraZpX _ => .ora
  | .oraAbs _ => .ora
  | .oraAbsX _ => .ora
  | .oraAbsY _ => .ora
  | .oraIndX _ => .ora
  | .oraIndY _ => .ora
  | .eorImm _ => .eor
  | .eorZp _ => .eor
  | .eorZpX _ => .eor
  | .eorAbs _ => .eor
  | .eorAbsX _ => .eor
  | .eorAbsY _ => .eor
  | .eorIndX _ => .eor
  | .eorIndY _ => .eor
  | .cmpImm _ => .cmp
  | .cmpZp _ => .cmp
  | .cmpZpX _ => .cmp
  | .cmpAbs _ => .cmp
  | .cmpAbsX _ => .cmp
  | .cmpAbsY _ => .cmp
  | .cmpIndX _ => .cmp
  | .cmpIndY _ => .cmp
  | .cpxImm _ => .cpx
  | .cpxZp _ => .cpx
  | .cpxAbs _ => .cpx
  | .cpyImm _ => .cpy
  | .cpyZp _ => .cpy
  | .cpyAbs _ => .cpy
  | .bitZp _ => .bit
  | .bitAbs _ => .bit
  | .aslAcc => .asl
  | .aslZp _ => .asl
  | .aslZpX _ => .asl
  | .aslAbs _ => .asl
  | .aslAbsX _ => .asl
  | .lsrAcc => .lsr
  | .lsrZp _ => .lsr
  | .lsrZpX _ => .lsr
  | .lsrAbs _ => .lsr
  | .lsrAbsX _ => .lsr
  | .rolAcc => .rol
  | .rolZp _ => .rol
  | .rolZpX _ => .rol
  | .rolAbs _ => .rol
  | .rolAbsX _ => .rol
  | .rorAcc => .ror
  | .rorZp _ => .ror
  | .rorZpX _ => .ror
  | .rorAbs _ => .ror
  | .rorAbsX _ => .ror
  | .incZp _ => .inc
  | .incZpX _ => .inc
  | .incAbs _ => .inc
  | .incAbsX _ => .inc
  | .decZp _ => .dec
  | .decZpX _ => .dec
  | .decAbs _ => .dec
  | .decAbsX _ => .dec
  | .inx => .inx
  | .iny => .iny
  | .dex => .dex
  | .dey => .dey
  | .tax => .tax
  | .tay => .tay
  | .txa => .txa
  | .tya => .tya
  | .tsx => .tsx
  | .txs => .txs
  | .clc => .clc
  | .sec => .sec
  | .cli => .cli
  | .sei => .sei
  | .cld => .cld
  | .sed => .sed
  | .clv => .clv
  | .pha => .pha
  | .pla => .pla
  | .php => .php
  | .plp => .plp
  | .nop => .nop
  | .bcc _ => .bcc
  | .bcs _ => .bcs
  | .beq _ => .beq
  | .bne _ => .bne
  | .bmi _ => .bmi
  | .bpl _ => .bpl
  | .bvc _ => .bvc
  | .bvs _ => .bvs
  | .jmpAbs _ => .jmp
  | .jmpInd _ => .jmp
  | .jsr _ => .jsr
  | .rts => .rts
  | .brk => .brk
  | .rti => .rti

/-- The mode column of R95, with the operand. -/
def Instr.mode : Instr → AddressingMode
  | .ldaImm v => .immediate v
  | .ldaZp b => .memory (.zeroPage b)
  | .ldaZpX b => .memory (.zeroPageX b)
  | .ldaAbs a => .memory (.absolute a)
  | .ldaAbsX a => .memory (.absoluteX a)
  | .ldaAbsY a => .memory (.absoluteY a)
  | .ldaIndX b => .memory (.indirectX b)
  | .ldaIndY b => .memory (.indirectY b)
  | .ldxImm v => .immediate v
  | .ldxZp b => .memory (.zeroPage b)
  | .ldxZpY b => .memory (.zeroPageY b)
  | .ldxAbs a => .memory (.absolute a)
  | .ldxAbsY a => .memory (.absoluteY a)
  | .ldyImm v => .immediate v
  | .ldyZp b => .memory (.zeroPage b)
  | .ldyZpX b => .memory (.zeroPageX b)
  | .ldyAbs a => .memory (.absolute a)
  | .ldyAbsX a => .memory (.absoluteX a)
  | .staZp b => .memory (.zeroPage b)
  | .staZpX b => .memory (.zeroPageX b)
  | .staAbs a => .memory (.absolute a)
  | .staAbsX a => .memory (.absoluteX a)
  | .staAbsY a => .memory (.absoluteY a)
  | .staIndX b => .memory (.indirectX b)
  | .staIndY b => .memory (.indirectY b)
  | .stxZp b => .memory (.zeroPage b)
  | .stxZpY b => .memory (.zeroPageY b)
  | .stxAbs a => .memory (.absolute a)
  | .styZp b => .memory (.zeroPage b)
  | .styZpX b => .memory (.zeroPageX b)
  | .styAbs a => .memory (.absolute a)
  | .adcImm v => .immediate v
  | .adcZp b => .memory (.zeroPage b)
  | .adcZpX b => .memory (.zeroPageX b)
  | .adcAbs a => .memory (.absolute a)
  | .adcAbsX a => .memory (.absoluteX a)
  | .adcAbsY a => .memory (.absoluteY a)
  | .adcIndX b => .memory (.indirectX b)
  | .adcIndY b => .memory (.indirectY b)
  | .sbcImm v => .immediate v
  | .sbcZp b => .memory (.zeroPage b)
  | .sbcZpX b => .memory (.zeroPageX b)
  | .sbcAbs a => .memory (.absolute a)
  | .sbcAbsX a => .memory (.absoluteX a)
  | .sbcAbsY a => .memory (.absoluteY a)
  | .sbcIndX b => .memory (.indirectX b)
  | .sbcIndY b => .memory (.indirectY b)
  | .andImm v => .immediate v
  | .andZp b => .memory (.zeroPage b)
  | .andZpX b => .memory (.zeroPageX b)
  | .andAbs a => .memory (.absolute a)
  | .andAbsX a => .memory (.absoluteX a)
  | .andAbsY a => .memory (.absoluteY a)
  | .andIndX b => .memory (.indirectX b)
  | .andIndY b => .memory (.indirectY b)
  | .oraImm v => .immediate v
  | .oraZp b => .memory (.zeroPage b)
  | .oraZpX b => .memory (.zeroPageX b)
  | .oraAbs a => .memory (.absolute a)
  | .oraAbsX a => .memory (.absoluteX a)
  | .oraAbsY a => .memory (.absoluteY a)
  | .oraIndX b => .memory (.indirectX b)
  | .oraIndY b => .memory (.indirectY b)
  | .eorImm v => .immediate v
  | .eorZp b => .memory (.zeroPage b)
  | .eorZpX b => .memory (.zeroPageX b)
  | .eorAbs a => .memory (.absolute a)
  | .eorAbsX a => .memory (.absoluteX a)
  | .eorAbsY a => .memory (.absoluteY a)
  | .eorIndX b => .memory (.indirectX b)
  | .eorIndY b => .memory (.indirectY b)
  | .cmpImm v => .immediate v
  | .cmpZp b => .memory (.zeroPage b)
  | .cmpZpX b => .memory (.zeroPageX b)
  | .cmpAbs a => .memory (.absolute a)
  | .cmpAbsX a => .memory (.absoluteX a)
  | .cmpAbsY a => .memory (.absoluteY a)
  | .cmpIndX b => .memory (.indirectX b)
  | .cmpIndY b => .memory (.indirectY b)
  | .cpxImm v => .immediate v
  | .cpxZp b => .memory (.zeroPage b)
  | .cpxAbs a => .memory (.absolute a)
  | .cpyImm v => .immediate v
  | .cpyZp b => .memory (.zeroPage b)
  | .cpyAbs a => .memory (.absolute a)
  | .bitZp b => .memory (.zeroPage b)
  | .bitAbs a => .memory (.absolute a)
  | .aslAcc => .accumulator
  | .aslZp b => .memory (.zeroPage b)
  | .aslZpX b => .memory (.zeroPageX b)
  | .aslAbs a => .memory (.absolute a)
  | .aslAbsX a => .memory (.absoluteX a)
  | .lsrAcc => .accumulator
  | .lsrZp b => .memory (.zeroPage b)
  | .lsrZpX b => .memory (.zeroPageX b)
  | .lsrAbs a => .memory (.absolute a)
  | .lsrAbsX a => .memory (.absoluteX a)
  | .rolAcc => .accumulator
  | .rolZp b => .memory (.zeroPage b)
  | .rolZpX b => .memory (.zeroPageX b)
  | .rolAbs a => .memory (.absolute a)
  | .rolAbsX a => .memory (.absoluteX a)
  | .rorAcc => .accumulator
  | .rorZp b => .memory (.zeroPage b)
  | .rorZpX b => .memory (.zeroPageX b)
  | .rorAbs a => .memory (.absolute a)
  | .rorAbsX a => .memory (.absoluteX a)
  | .incZp b => .memory (.zeroPage b)
  | .incZpX b => .memory (.zeroPageX b)
  | .incAbs a => .memory (.absolute a)
  | .incAbsX a => .memory (.absoluteX a)
  | .decZp b => .memory (.zeroPage b)
  | .decZpX b => .memory (.zeroPageX b)
  | .decAbs a => .memory (.absolute a)
  | .decAbsX a => .memory (.absoluteX a)
  | .inx => .implied
  | .iny => .implied
  | .dex => .implied
  | .dey => .implied
  | .tax => .implied
  | .tay => .implied
  | .txa => .implied
  | .tya => .implied
  | .tsx => .implied
  | .txs => .implied
  | .clc => .implied
  | .sec => .implied
  | .cli => .implied
  | .sei => .implied
  | .cld => .implied
  | .sed => .implied
  | .clv => .implied
  | .pha => .implied
  | .pla => .implied
  | .php => .implied
  | .plp => .implied
  | .nop => .implied
  | .bcc r => .memory (.relative r)
  | .bcs r => .memory (.relative r)
  | .beq r => .memory (.relative r)
  | .bne r => .memory (.relative r)
  | .bmi r => .memory (.relative r)
  | .bpl r => .memory (.relative r)
  | .bvc r => .memory (.relative r)
  | .bvs r => .memory (.relative r)
  | .jmpAbs a => .memory (.absolute a)
  | .jmpInd a => .memory (.indirect a)
  | .jsr a => .memory (.absolute a)
  | .rts => .implied
  | .brk => .implied
  | .rti => .implied

end Sys2Proof
end

