-- ==== Sys2Proof/WellFormed.lean ====
section
/-! DEFINITION. Which instructions exist on a bus, and which parameter values R6 admits. -/

namespace Sys2Proof

/-- An instruction exists on a bus if its operand address has the bus's width; every operand byte exists (R81, R86). -/
def Instr.wellFormed (bus : BusWidth) (i : Instr) : Bool := i.mode.fits bus

/-- `RAM_END` is one of the two values of the 16-bit profile, or at least 0x0200 on the wide bus (R6, D3). -/
def Config.ramEndLegal (c : Config) : Bool :=
  match c.bus with
  | .bits16 => c.ramEnd == 0x7FFF || c.ramEnd == 0x55FF
  | .bits24 => decide (0x0200 ≤ c.ramEnd)

/-- `SYS_BASE` is 0xFF00 on the 16-bit bus; on the wide bus it lies above RAM and leaves 256 bytes (R6, D3). -/
def Config.sysBaseLegal (c : Config) : Bool :=
  match c.bus with
  | .bits16 => c.sysBase == 0xFF00
  | .bits24 => decide (c.ramEnd < c.sysBase) && decide (c.sysBase ≤ c.bus.size - 256)

/-- The IO window, where there is one, is a sub-range of RAM (R54). -/
def Config.ioWindowLegal (c : Config) : Bool :=
  match c.ioWindow with
  | none => true
  | some (lo, hi) => decide (0x0200 ≤ lo) && decide (lo ≤ hi) && decide (hi ≤ c.ramEnd)

/-- Both vectors lie in the system area with room for their pointer (R74, D9). -/
def Config.vectorsLegal (c : Config) : Bool :=
  decide (c.sysBase ≤ c.resetVec) && decide (c.resetVec + c.bus.bytes ≤ c.bus.size) &&
  decide (c.sysBase ≤ c.brkVec) && decide (c.brkVec + c.bus.bytes ≤ c.bus.size)

/-- The two pointers do not overlap. D9 says so of the 24-bit bus alone. DESIGN CHOICE (log 20): the test asks it of an
overridden `RESET_VEC` and `BRK_VEC` on the 16-bit bus too, on which the spec is silent. Safe: no step looks at it. -/
def Config.vectorsApart (c : Config) : Bool :=
  decide (c.resetVec + c.bus.bytes ≤ c.brkVec) || decide (c.brkVec + c.bus.bytes ≤ c.resetVec)

/-- The cycle counter has at least 32 bits (R38). -/
def Config.cycleBitsLegal (c : Config) : Bool :=
  match c.cycleBits with
  | none => true
  | some k => decide (32 ≤ k)

/-- The parameter values R6, R38, R54, R74, D3 and D9 admit, but for overlapping vectors on the 16-bit bus (log 20).
The machine of a `Config` outside them is defined all the same (log 14). -/
def Config.legal (c : Config) : Bool :=
  c.ramEndLegal && c.sysBaseLegal && c.ioWindowLegal && c.vectorsLegal && c.vectorsApart && c.cycleBitsLegal

end Sys2Proof
end

