-- ==== Sys2Proof/Decode.lean ====
section
/-! DEFINITION. The opcode table of R95, the decoder over it, and the encoder. -/

namespace Sys2Proof

/-- How an opcode's operand bytes make its instruction: the three formats of R81. -/
inductive Format
  | f0 (i : Instr)
  | f1 (mk : Byte → Instr)
  | fa (mk : Addr → Instr)

/-- One row of R95: the triple `(mnemonic, mode, cost)` of R111 under its opcode, and the format. -/
structure OpcodeRow where
  opcode : Byte
  mnemonic : Mnemonic
  mode : ModeTag
  cycles : Nat
  format : Format

/-- R95, opcodes 0x00 to 0x0F. -/
def opcodeRows0 : List OpcodeRow :=
  [ ⟨0x00, .brk, .implied, 7, .f0 .brk⟩,
    ⟨0x01, .ora, .indirectX, 6, .f1 .oraIndX⟩,
    ⟨0x05, .ora, .zeroPage, 3, .f1 .oraZp⟩,
    ⟨0x06, .asl, .zeroPage, 5, .f1 .aslZp⟩,
    ⟨0x08, .php, .implied, 3, .f0 .php⟩,
    ⟨0x09, .ora, .immediate, 2, .f1 .oraImm⟩,
    ⟨0x0A, .asl, .accumulator, 2, .f0 .aslAcc⟩,
    ⟨0x0D, .ora, .absolute, 4, .fa .oraAbs⟩,
    ⟨0x0E, .asl, .absolute, 6, .fa .aslAbs⟩ ]

/-- R95, opcodes 0x10 to 0x1F. -/
def opcodeRows1 : List OpcodeRow :=
  [ ⟨0x10, .bpl, .relative, 2, .f1 .bpl⟩,
    ⟨0x11, .ora, .indirectY, 5, .f1 .oraIndY⟩,
    ⟨0x15, .ora, .zeroPageX, 4, .f1 .oraZpX⟩,
    ⟨0x16, .asl, .zeroPageX, 6, .f1 .aslZpX⟩,
    ⟨0x18, .clc, .implied, 2, .f0 .clc⟩,
    ⟨0x19, .ora, .absoluteY, 4, .fa .oraAbsY⟩,
    ⟨0x1D, .ora, .absoluteX, 4, .fa .oraAbsX⟩,
    ⟨0x1E, .asl, .absoluteX, 7, .fa .aslAbsX⟩ ]

/-- R95, opcodes 0x20 to 0x2F. -/
def opcodeRows2 : List OpcodeRow :=
  [ ⟨0x20, .jsr, .absolute, 6, .fa .jsr⟩,
    ⟨0x21, .and, .indirectX, 6, .f1 .andIndX⟩,
    ⟨0x24, .bit, .zeroPage, 3, .f1 .bitZp⟩,
    ⟨0x25, .and, .zeroPage, 3, .f1 .andZp⟩,
    ⟨0x26, .rol, .zeroPage, 5, .f1 .rolZp⟩,
    ⟨0x28, .plp, .implied, 4, .f0 .plp⟩,
    ⟨0x29, .and, .immediate, 2, .f1 .andImm⟩,
    ⟨0x2A, .rol, .accumulator, 2, .f0 .rolAcc⟩,
    ⟨0x2C, .bit, .absolute, 4, .fa .bitAbs⟩,
    ⟨0x2D, .and, .absolute, 4, .fa .andAbs⟩,
    ⟨0x2E, .rol, .absolute, 6, .fa .rolAbs⟩ ]

/-- R95, opcodes 0x30 to 0x3F. -/
def opcodeRows3 : List OpcodeRow :=
  [ ⟨0x30, .bmi, .relative, 2, .f1 .bmi⟩,
    ⟨0x31, .and, .indirectY, 5, .f1 .andIndY⟩,
    ⟨0x35, .and, .zeroPageX, 4, .f1 .andZpX⟩,
    ⟨0x36, .rol, .zeroPageX, 6, .f1 .rolZpX⟩,
    ⟨0x38, .sec, .implied, 2, .f0 .sec⟩,
    ⟨0x39, .and, .absoluteY, 4, .fa .andAbsY⟩,
    ⟨0x3D, .and, .absoluteX, 4, .fa .andAbsX⟩,
    ⟨0x3E, .rol, .absoluteX, 7, .fa .rolAbsX⟩ ]

/-- R95, opcodes 0x40 to 0x4F. -/
def opcodeRows4 : List OpcodeRow :=
  [ ⟨0x40, .rti, .implied, 6, .f0 .rti⟩,
    ⟨0x41, .eor, .indirectX, 6, .f1 .eorIndX⟩,
    ⟨0x45, .eor, .zeroPage, 3, .f1 .eorZp⟩,
    ⟨0x46, .lsr, .zeroPage, 5, .f1 .lsrZp⟩,
    ⟨0x48, .pha, .implied, 3, .f0 .pha⟩,
    ⟨0x49, .eor, .immediate, 2, .f1 .eorImm⟩,
    ⟨0x4A, .lsr, .accumulator, 2, .f0 .lsrAcc⟩,
    ⟨0x4C, .jmp, .absolute, 3, .fa .jmpAbs⟩,
    ⟨0x4D, .eor, .absolute, 4, .fa .eorAbs⟩,
    ⟨0x4E, .lsr, .absolute, 6, .fa .lsrAbs⟩ ]

/-- R95, opcodes 0x50 to 0x5F. -/
def opcodeRows5 : List OpcodeRow :=
  [ ⟨0x50, .bvc, .relative, 2, .f1 .bvc⟩,
    ⟨0x51, .eor, .indirectY, 5, .f1 .eorIndY⟩,
    ⟨0x55, .eor, .zeroPageX, 4, .f1 .eorZpX⟩,
    ⟨0x56, .lsr, .zeroPageX, 6, .f1 .lsrZpX⟩,
    ⟨0x58, .cli, .implied, 2, .f0 .cli⟩,
    ⟨0x59, .eor, .absoluteY, 4, .fa .eorAbsY⟩,
    ⟨0x5D, .eor, .absoluteX, 4, .fa .eorAbsX⟩,
    ⟨0x5E, .lsr, .absoluteX, 7, .fa .lsrAbsX⟩ ]

/-- R95, opcodes 0x60 to 0x6F. -/
def opcodeRows6 : List OpcodeRow :=
  [ ⟨0x60, .rts, .implied, 6, .f0 .rts⟩,
    ⟨0x61, .adc, .indirectX, 6, .f1 .adcIndX⟩,
    ⟨0x65, .adc, .zeroPage, 3, .f1 .adcZp⟩,
    ⟨0x66, .ror, .zeroPage, 5, .f1 .rorZp⟩,
    ⟨0x68, .pla, .implied, 4, .f0 .pla⟩,
    ⟨0x69, .adc, .immediate, 2, .f1 .adcImm⟩,
    ⟨0x6A, .ror, .accumulator, 2, .f0 .rorAcc⟩,
    ⟨0x6C, .jmp, .indirect, 5, .fa .jmpInd⟩,
    ⟨0x6D, .adc, .absolute, 4, .fa .adcAbs⟩,
    ⟨0x6E, .ror, .absolute, 6, .fa .rorAbs⟩ ]

/-- R95, opcodes 0x70 to 0x7F. -/
def opcodeRows7 : List OpcodeRow :=
  [ ⟨0x70, .bvs, .relative, 2, .f1 .bvs⟩,
    ⟨0x71, .adc, .indirectY, 5, .f1 .adcIndY⟩,
    ⟨0x75, .adc, .zeroPageX, 4, .f1 .adcZpX⟩,
    ⟨0x76, .ror, .zeroPageX, 6, .f1 .rorZpX⟩,
    ⟨0x78, .sei, .implied, 2, .f0 .sei⟩,
    ⟨0x79, .adc, .absoluteY, 4, .fa .adcAbsY⟩,
    ⟨0x7D, .adc, .absoluteX, 4, .fa .adcAbsX⟩,
    ⟨0x7E, .ror, .absoluteX, 7, .fa .rorAbsX⟩ ]

/-- R95, opcodes 0x80 to 0x8F. -/
def opcodeRows8 : List OpcodeRow :=
  [ ⟨0x81, .sta, .indirectX, 6, .f1 .staIndX⟩,
    ⟨0x84, .sty, .zeroPage, 3, .f1 .styZp⟩,
    ⟨0x85, .sta, .zeroPage, 3, .f1 .staZp⟩,
    ⟨0x86, .stx, .zeroPage, 3, .f1 .stxZp⟩,
    ⟨0x88, .dey, .implied, 2, .f0 .dey⟩,
    ⟨0x8A, .txa, .implied, 2, .f0 .txa⟩,
    ⟨0x8C, .sty, .absolute, 4, .fa .styAbs⟩,
    ⟨0x8D, .sta, .absolute, 4, .fa .staAbs⟩,
    ⟨0x8E, .stx, .absolute, 4, .fa .stxAbs⟩ ]

/-- R95, opcodes 0x90 to 0x9F. -/
def opcodeRows9 : List OpcodeRow :=
  [ ⟨0x90, .bcc, .relative, 2, .f1 .bcc⟩,
    ⟨0x91, .sta, .indirectY, 6, .f1 .staIndY⟩,
    ⟨0x94, .sty, .zeroPageX, 4, .f1 .styZpX⟩,
    ⟨0x95, .sta, .zeroPageX, 4, .f1 .staZpX⟩,
    ⟨0x96, .stx, .zeroPageY, 4, .f1 .stxZpY⟩,
    ⟨0x98, .tya, .implied, 2, .f0 .tya⟩,
    ⟨0x99, .sta, .absoluteY, 5, .fa .staAbsY⟩,
    ⟨0x9A, .txs, .implied, 2, .f0 .txs⟩,
    ⟨0x9D, .sta, .absoluteX, 5, .fa .staAbsX⟩ ]

/-- R95, opcodes 0xA0 to 0xAF. -/
def opcodeRowsA : List OpcodeRow :=
  [ ⟨0xA0, .ldy, .immediate, 2, .f1 .ldyImm⟩,
    ⟨0xA1, .lda, .indirectX, 6, .f1 .ldaIndX⟩,
    ⟨0xA2, .ldx, .immediate, 2, .f1 .ldxImm⟩,
    ⟨0xA4, .ldy, .zeroPage, 3, .f1 .ldyZp⟩,
    ⟨0xA5, .lda, .zeroPage, 3, .f1 .ldaZp⟩,
    ⟨0xA6, .ldx, .zeroPage, 3, .f1 .ldxZp⟩,
    ⟨0xA8, .tay, .implied, 2, .f0 .tay⟩,
    ⟨0xA9, .lda, .immediate, 2, .f1 .ldaImm⟩,
    ⟨0xAA, .tax, .implied, 2, .f0 .tax⟩,
    ⟨0xAC, .ldy, .absolute, 4, .fa .ldyAbs⟩,
    ⟨0xAD, .lda, .absolute, 4, .fa .ldaAbs⟩,
    ⟨0xAE, .ldx, .absolute, 4, .fa .ldxAbs⟩ ]

/-- R95, opcodes 0xB0 to 0xBF. -/
def opcodeRowsB : List OpcodeRow :=
  [ ⟨0xB0, .bcs, .relative, 2, .f1 .bcs⟩,
    ⟨0xB1, .lda, .indirectY, 5, .f1 .ldaIndY⟩,
    ⟨0xB4, .ldy, .zeroPageX, 4, .f1 .ldyZpX⟩,
    ⟨0xB5, .lda, .zeroPageX, 4, .f1 .ldaZpX⟩,
    ⟨0xB6, .ldx, .zeroPageY, 4, .f1 .ldxZpY⟩,
    ⟨0xB8, .clv, .implied, 2, .f0 .clv⟩,
    ⟨0xB9, .lda, .absoluteY, 4, .fa .ldaAbsY⟩,
    ⟨0xBA, .tsx, .implied, 2, .f0 .tsx⟩,
    ⟨0xBC, .ldy, .absoluteX, 4, .fa .ldyAbsX⟩,
    ⟨0xBD, .lda, .absoluteX, 4, .fa .ldaAbsX⟩,
    ⟨0xBE, .ldx, .absoluteY, 4, .fa .ldxAbsY⟩ ]

/-- R95, opcodes 0xC0 to 0xCF. -/
def opcodeRowsC : List OpcodeRow :=
  [ ⟨0xC0, .cpy, .immediate, 2, .f1 .cpyImm⟩,
    ⟨0xC1, .cmp, .indirectX, 6, .f1 .cmpIndX⟩,
    ⟨0xC4, .cpy, .zeroPage, 3, .f1 .cpyZp⟩,
    ⟨0xC5, .cmp, .zeroPage, 3, .f1 .cmpZp⟩,
    ⟨0xC6, .dec, .zeroPage, 5, .f1 .decZp⟩,
    ⟨0xC8, .iny, .implied, 2, .f0 .iny⟩,
    ⟨0xC9, .cmp, .immediate, 2, .f1 .cmpImm⟩,
    ⟨0xCA, .dex, .implied, 2, .f0 .dex⟩,
    ⟨0xCC, .cpy, .absolute, 4, .fa .cpyAbs⟩,
    ⟨0xCD, .cmp, .absolute, 4, .fa .cmpAbs⟩,
    ⟨0xCE, .dec, .absolute, 6, .fa .decAbs⟩ ]

/-- R95, opcodes 0xD0 to 0xDF. -/
def opcodeRowsD : List OpcodeRow :=
  [ ⟨0xD0, .bne, .relative, 2, .f1 .bne⟩,
    ⟨0xD1, .cmp, .indirectY, 5, .f1 .cmpIndY⟩,
    ⟨0xD5, .cmp, .zeroPageX, 4, .f1 .cmpZpX⟩,
    ⟨0xD6, .dec, .zeroPageX, 6, .f1 .decZpX⟩,
    ⟨0xD8, .cld, .implied, 2, .f0 .cld⟩,
    ⟨0xD9, .cmp, .absoluteY, 4, .fa .cmpAbsY⟩,
    ⟨0xDD, .cmp, .absoluteX, 4, .fa .cmpAbsX⟩,
    ⟨0xDE, .dec, .absoluteX, 7, .fa .decAbsX⟩ ]

/-- R95, opcodes 0xE0 to 0xEF. -/
def opcodeRowsE : List OpcodeRow :=
  [ ⟨0xE0, .cpx, .immediate, 2, .f1 .cpxImm⟩,
    ⟨0xE1, .sbc, .indirectX, 6, .f1 .sbcIndX⟩,
    ⟨0xE4, .cpx, .zeroPage, 3, .f1 .cpxZp⟩,
    ⟨0xE5, .sbc, .zeroPage, 3, .f1 .sbcZp⟩,
    ⟨0xE6, .inc, .zeroPage, 5, .f1 .incZp⟩,
    ⟨0xE8, .inx, .implied, 2, .f0 .inx⟩,
    ⟨0xE9, .sbc, .immediate, 2, .f1 .sbcImm⟩,
    ⟨0xEA, .nop, .implied, 2, .f0 .nop⟩,
    ⟨0xEC, .cpx, .absolute, 4, .fa .cpxAbs⟩,
    ⟨0xED, .sbc, .absolute, 4, .fa .sbcAbs⟩,
    ⟨0xEE, .inc, .absolute, 6, .fa .incAbs⟩ ]

/-- R95, opcodes 0xF0 to 0xFF. -/
def opcodeRowsF : List OpcodeRow :=
  [ ⟨0xF0, .beq, .relative, 2, .f1 .beq⟩,
    ⟨0xF1, .sbc, .indirectY, 5, .f1 .sbcIndY⟩,
    ⟨0xF5, .sbc, .zeroPageX, 4, .f1 .sbcZpX⟩,
    ⟨0xF6, .inc, .zeroPageX, 6, .f1 .incZpX⟩,
    ⟨0xF8, .sed, .implied, 2, .f0 .sed⟩,
    ⟨0xF9, .sbc, .absoluteY, 4, .fa .sbcAbsY⟩,
    ⟨0xFD, .sbc, .absoluteX, 4, .fa .sbcAbsX⟩,
    ⟨0xFE, .inc, .absoluteX, 7, .fa .incAbsX⟩ ]

/-- The decode table of R95: 151 rows. -/
def opcodeTable : List OpcodeRow :=
  opcodeRows0 ++ opcodeRows1 ++ opcodeRows2 ++ opcodeRows3 ++ opcodeRows4 ++ opcodeRows5 ++ opcodeRows6 ++ opcodeRows7 ++
  opcodeRows8 ++ opcodeRows9 ++ opcodeRowsA ++ opcodeRowsB ++ opcodeRowsC ++ opcodeRowsD ++ opcodeRowsE ++ opcodeRowsF

/-- `TABLE[op]`: the row of an opcode, or none (R111). -/
def tableLookup (op : Byte) : Option OpcodeRow := opcodeTable.find? fun r => r.opcode == op

/-- Why bytes are not an instruction. -/
inductive DecodeError
  /-- the opcode byte has no row (R98) -/
  | unrecognised (op : Byte)
  /-- the bytes end before the instruction does -/
  | incomplete
  deriving DecidableEq, Repr

/-- The operand of a row from the bytes after the opcode byte, and the bytes left over (R84 to R87). -/
def Format.build (bus : BusWidth) : Format → List Byte → Except DecodeError (Instr × List Byte)
  | .f0 i, rest => .ok (i, rest)
  | .f1 mk, b :: rest => .ok (mk b, rest)
  | .f1 _, [] => .error .incomplete
  | .fa mk, rest =>
    if rest.length < bus.bytes then .error .incomplete
    else .ok (mk (bus.addr (leNat (rest.take bus.bytes))), rest.drop bus.bytes)

/-- Decode one instruction from the front of a byte list: a lookup of the whole opcode byte (R88). -/
def decode (bus : BusWidth) : List Byte → Except DecodeError (Instr × List Byte)
  | [] => .error .incomplete
  | op :: rest =>
    match tableLookup op with
    | none => .error (.unrecognised op)
    | some row => row.format.build bus rest

/-- The opcode column of R95. -/
def Instr.opcode : Instr → Byte
  | .ldaImm _ => 0xA9
  | .ldaZp _ => 0xA5
  | .ldaZpX _ => 0xB5
  | .ldaAbs _ => 0xAD
  | .ldaAbsX _ => 0xBD
  | .ldaAbsY _ => 0xB9
  | .ldaIndX _ => 0xA1
  | .ldaIndY _ => 0xB1
  | .ldxImm _ => 0xA2
  | .ldxZp _ => 0xA6
  | .ldxZpY _ => 0xB6
  | .ldxAbs _ => 0xAE
  | .ldxAbsY _ => 0xBE
  | .ldyImm _ => 0xA0
  | .ldyZp _ => 0xA4
  | .ldyZpX _ => 0xB4
  | .ldyAbs _ => 0xAC
  | .ldyAbsX _ => 0xBC
  | .staZp _ => 0x85
  | .staZpX _ => 0x95
  | .staAbs _ => 0x8D
  | .staAbsX _ => 0x9D
  | .staAbsY _ => 0x99
  | .staIndX _ => 0x81
  | .staIndY _ => 0x91
  | .stxZp _ => 0x86
  | .stxZpY _ => 0x96
  | .stxAbs _ => 0x8E
  | .styZp _ => 0x84
  | .styZpX _ => 0x94
  | .styAbs _ => 0x8C
  | .adcImm _ => 0x69
  | .adcZp _ => 0x65
  | .adcZpX _ => 0x75
  | .adcAbs _ => 0x6D
  | .adcAbsX _ => 0x7D
  | .adcAbsY _ => 0x79
  | .adcIndX _ => 0x61
  | .adcIndY _ => 0x71
  | .sbcImm _ => 0xE9
  | .sbcZp _ => 0xE5
  | .sbcZpX _ => 0xF5
  | .sbcAbs _ => 0xED
  | .sbcAbsX _ => 0xFD
  | .sbcAbsY _ => 0xF9
  | .sbcIndX _ => 0xE1
  | .sbcIndY _ => 0xF1
  | .andImm _ => 0x29
  | .andZp _ => 0x25
  | .andZpX _ => 0x35
  | .andAbs _ => 0x2D
  | .andAbsX _ => 0x3D
  | .andAbsY _ => 0x39
  | .andIndX _ => 0x21
  | .andIndY _ => 0x31
  | .oraImm _ => 0x09
  | .oraZp _ => 0x05
  | .oraZpX _ => 0x15
  | .oraAbs _ => 0x0D
  | .oraAbsX _ => 0x1D
  | .oraAbsY _ => 0x19
  | .oraIndX _ => 0x01
  | .oraIndY _ => 0x11
  | .eorImm _ => 0x49
  | .eorZp _ => 0x45
  | .eorZpX _ => 0x55
  | .eorAbs _ => 0x4D
  | .eorAbsX _ => 0x5D
  | .eorAbsY _ => 0x59
  | .eorIndX _ => 0x41
  | .eorIndY _ => 0x51
  | .cmpImm _ => 0xC9
  | .cmpZp _ => 0xC5
  | .cmpZpX _ => 0xD5
  | .cmpAbs _ => 0xCD
  | .cmpAbsX _ => 0xDD
  | .cmpAbsY _ => 0xD9
  | .cmpIndX _ => 0xC1
  | .cmpIndY _ => 0xD1
  | .cpxImm _ => 0xE0
  | .cpxZp _ => 0xE4
  | .cpxAbs _ => 0xEC
  | .cpyImm _ => 0xC0
  | .cpyZp _ => 0xC4
  | .cpyAbs _ => 0xCC
  | .bitZp _ => 0x24
  | .bitAbs _ => 0x2C
  | .aslAcc => 0x0A
  | .aslZp _ => 0x06
  | .aslZpX _ => 0x16
  | .aslAbs _ => 0x0E
  | .aslAbsX _ => 0x1E
  | .lsrAcc => 0x4A
  | .lsrZp _ => 0x46
  | .lsrZpX _ => 0x56
  | .lsrAbs _ => 0x4E
  | .lsrAbsX _ => 0x5E
  | .rolAcc => 0x2A
  | .rolZp _ => 0x26
  | .rolZpX _ => 0x36
  | .rolAbs _ => 0x2E
  | .rolAbsX _ => 0x3E
  | .rorAcc => 0x6A
  | .rorZp _ => 0x66
  | .rorZpX _ => 0x76
  | .rorAbs _ => 0x6E
  | .rorAbsX _ => 0x7E
  | .incZp _ => 0xE6
  | .incZpX _ => 0xF6
  | .incAbs _ => 0xEE
  | .incAbsX _ => 0xFE
  | .decZp _ => 0xC6
  | .decZpX _ => 0xD6
  | .decAbs _ => 0xCE
  | .decAbsX _ => 0xDE
  | .inx => 0xE8
  | .iny => 0xC8
  | .dex => 0xCA
  | .dey => 0x88
  | .tax => 0xAA
  | .tay => 0xA8
  | .txa => 0x8A
  | .tya => 0x98
  | .tsx => 0xBA
  | .txs => 0x9A
  | .clc => 0x18
  | .sec => 0x38
  | .cli => 0x58
  | .sei => 0x78
  | .cld => 0xD8
  | .sed => 0xF8
  | .clv => 0xB8
  | .pha => 0x48
  | .pla => 0x68
  | .php => 0x08
  | .plp => 0x28
  | .nop => 0xEA
  | .bcc _ => 0x90
  | .bcs _ => 0xB0
  | .beq _ => 0xF0
  | .bne _ => 0xD0
  | .bmi _ => 0x30
  | .bpl _ => 0x10
  | .bvc _ => 0x50
  | .bvs _ => 0x70
  | .jmpAbs _ => 0x4C
  | .jmpInd _ => 0x6C
  | .jsr _ => 0x20
  | .rts => 0x60
  | .brk => 0x00
  | .rti => 0x40

/-- The operand bytes of a mode, address bytes least significant first (R81, R86). -/
def AddressingMode.operandBytes (bus : BusWidth) : AddressingMode → List Byte
  | .implied => []
  | .accumulator => []
  | .immediate v => [v]
  | .memory (.zeroPage b) => [b]
  | .memory (.zeroPageX b) => [b]
  | .memory (.zeroPageY b) => [b]
  | .memory (.absolute a) => leBytes bus.bytes a.toNat
  | .memory (.absoluteX a) => leBytes bus.bytes a.toNat
  | .memory (.absoluteY a) => leBytes bus.bytes a.toNat
  | .memory (.indirect a) => leBytes bus.bytes a.toNat
  | .memory (.indirectX b) => [b]
  | .memory (.indirectY b) => [b]
  | .memory (.relative r) => [r]

/-- The bytes of an instruction (R80, R81). -/
def encode (bus : BusWidth) (i : Instr) : List Byte := i.opcode :: i.mode.operandBytes bus

/-- The base cycle cost R95 lists for the instruction's opcode (R97). -/
def Instr.baseCycles (i : Instr) : Nat :=
  match tableLookup i.opcode with
  | some row => row.cycles
  | none => 0

/-- The bytes of a number whose bits are numbered as spec/opcode_table.json numbers them: byte k is bits 8k+7 to 8k. -/
def tableBytes (nbits w : Nat) : List Byte := leBytes 4 (w % 2 ^ nbits)

/-- The instruction the decoder reads from a word of spec/opcode_table.json, every bit above `nbits` zero, under the
default parameters (R6). -/
def decodeTableWord (nbits w : Nat) : Option Instr :=
  match decode Config.standard.bus (tableBytes nbits w) with
  | .ok (i, _) => some i
  | .error _ => none

end Sys2Proof
end

