-- ==== Sys2Proof/Machine/Memory.lean ====
section
/-! DEFINITION. Memory as a canonical list of address and byte, and the read and write primitives over it. -/

namespace Sys2Proof.Machine

/-- The one byte array of R50: the listed addresses strictly rising, no entry equal to what an unlisted
address reads as (`Memory.wf`). -/
abbrev Memory := List Host.Cell

/-- What an address that is not listed reads as. DESIGN CHOICE (log 4): 0x00, which `initialise` gives all
RAM (R291). Where neither loader nor `initialise` wrote, the spec gives no value (R292): unsafe for a claim
about one memory, while a claim about every memory covers every launch contents. -/
def Memory.unlisted : Byte := 0x00

/-- Memory with nothing listed. -/
def Memory.empty : Memory := []

/-- The byte at one address. -/
def Memory.read : Memory → Nat → Byte
  | [], _ => Memory.unlisted
  | (k, w) :: m, a => if k = a then w else Memory.read m a

/-- Write one byte and keep the canonical form. -/
def Memory.write : Memory → Nat → Byte → Memory
  | [], a, v => if v = Memory.unlisted then [] else [(a, v)]
  | (k, w) :: m, a, v =>
    if a < k then (if v = Memory.unlisted then (k, w) :: m else (a, v) :: (k, w) :: m)
    else if a = k then (if v = Memory.unlisted then m else (a, v) :: m)
    else (k, w) :: Memory.write m a v

/-- Set every byte from `lo` to `hi` to 0x00: the entries there go, since an unlisted byte reads as 0x00 (R291). -/
def Memory.zeroRange (lo hi : Nat) (m : Memory) : Memory :=
  m.filter fun c => !(decide (lo ≤ c.1) && decide (c.1 ≤ hi))

/-- The canonical form. -/
abbrev Memory.wf (m : Memory) : Prop :=
  m.Pairwise (fun c d => c.1 < d.1) ∧ ∀ c ∈ m, c.2 ≠ Memory.unlisted

/-- Every listed address exists on this bus (R50). -/
abbrev Memory.inSpace (bus : BusWidth) (m : Memory) : Prop := ∀ c ∈ m, c.1 < bus.size

/-- `MemRead(a, 1)`: the address is taken modulo the bus width, and a read never fails (R55). -/
def Memory.memRead (bus : BusWidth) (m : Memory) (a : Nat) : Byte := Memory.read m (bus.addr a).toNat

/-- `ReadAddr(p)`: `AB` bytes, least significant first, at `addr(p + k)` (R58). -/
def Memory.readAddr (bus : BusWidth) (m : Memory) (p : Nat) : Addr :=
  bus.addr (leNat ((List.range bus.bytes).map fun k => Memory.memRead bus m (p + k)))

/-- `ReadAddrZP(z)`: `AB` bytes at `(z + k) & 0xFF`, so the pointer wraps inside page 0 (R59). -/
def Memory.readAddrZP (bus : BusWidth) (m : Memory) (z : Byte) : Addr :=
  bus.addr (leNat ((List.range bus.bytes).map fun k => Memory.memRead bus m ((z.toNat + k) % 256)))

end Sys2Proof.Machine
end

