-- ==== Sys2Proof/Machine/State.lean ====
section
/-! DEFINITION. The state of the engine, the reasons a step stops, and the state after reset. -/

namespace Sys2Proof.Machine

/-- The seven status flags, each a stored bit (R31). -/
structure Flags where
  /-- carry -/
  c : Bool
  /-- zero -/
  z : Bool
  /-- interrupt-disable; it gates nothing (R271) -/
  i : Bool
  /-- decimal; cosmetic (R164) -/
  d : Bool
  /-- break, a real stored flag (R31) -/
  b : Bool
  /-- overflow -/
  v : Bool
  /-- negative -/
  n : Bool
  deriving DecidableEq, Repr

/-- The fault code a suppressed write records (R37). It is state, not an outcome of a step (log 7). -/
inductive FaultCode
  | none
  | outOfBoundsWrite
  deriving DecidableEq, Repr

/-- The engine state of R20, and the parameters it runs under (R6, R21; log 1). -/
structure State where
  /-- accumulator (R22) -/
  a : Byte
  /-- index register X (R23) -/
  x : Byte
  /-- index register Y (R24) -/
  y : Byte
  /-- stack pointer, an offset in the stack page (R25) -/
  sp : Byte
  /-- program counter (R27) -/
  pc : Addr
  /-- the seven flags (R31) -/
  flags : Flags
  /-- process-control signal; `false` is Halted (R36) -/
  running : Bool
  /-- fault code (R37) -/
  fault : FaultCode
  /-- cycle counter (R38) -/
  cycleCount : Nat
  /-- memory (R50) -/
  mem : Memory
  /-- the parameters, which no step changes (R21) -/
  cfg : Config
  deriving DecidableEq, Repr

/-- The machine stops with a fault: never. The one fault of the spec, OutOfBoundsWrite, lets the step
complete and is recorded in `State.fault` (R118, R261), and R263 excludes every other exception. So no
constructor, and nobody raises one (log 7): safe. -/
inductive Fault
  deriving DecidableEq, Repr

/-- No next state. -/
inductive Refusal
  /-- An instruction that has no meaning in this model; raised by an arm of `exec` alone. Safe. No arm raises it. -/
  | notModelled (mnemonic : String)
  /-- Raised by `step` in a state with `running = 0`: "A state with `running = 0` ("Halted") has no step" (R110,
  U5 of 93_implementation_defined.md: refuse; log 6). Safe. -/
  | halted
  /-- Raised by `step` if the fetched bytes end before the instruction does. The fetch supplies the longest
  instruction's bytes (`fetchBytes`), so no state raises it (`Laws.step_running`). Safe. -/
  | incompleteFetch
  deriving DecidableEq, Repr

/-- What a meaning answers. -/
abbrev Outcome := Host.Outcome State Fault Refusal

def State.setA (v : Byte) (s : State) : State := { s with a := v }
def State.setX (v : Byte) (s : State) : State := { s with x := v }
def State.setY (v : Byte) (s : State) : State := { s with y := v }
def State.setSp (v : Byte) (s : State) : State := { s with sp := v }
def State.setPc (v : Addr) (s : State) : State := { s with pc := v }
def State.setFlags (f : Flags) (s : State) : State := { s with flags := f }
def State.setRunning (r : Bool) (s : State) : State := { s with running := r }
def State.setFault (f : FaultCode) (s : State) : State := { s with fault := f }
def State.setCycleCount (n : Nat) (s : State) : State := { s with cycleCount := n }
def State.setMem (m : Memory) (s : State) : State := { s with mem := m }

/-- All seven flags 0 (R41, D18). -/
def Flags.clear : Flags := ⟨false, false, false, false, false, false, false⟩

/-- The machine right after `reset()` (R41, R290), every parameter at its default (R6; log 2), over a launch
memory that lists nothing (log 4, log 5). PC is `ReadAddr(RESET_VEC)` of that memory. -/
def State.reset : State where
  a := 0x00
  x := 0x00
  y := 0x00
  sp := Config.standard.resetSp
  pc := Memory.readAddr Config.standard.bus Memory.empty Config.standard.resetVec
  flags := Flags.clear
  running := true
  fault := .none
  cycleCount := 0
  mem := Memory.empty
  cfg := Config.standard

end Sys2Proof.Machine
end

