-- ==== Sys2Proof/Machine/Flags.lean ====
section
/-! DEFINITION. Every flag computation of the spec, and the processor-status byte. -/

namespace Sys2Proof.Machine

/-- `setZN(v)`: Z and N from a result, nothing else (R150). -/
def Flags.setZN (v : Byte) (f : Flags) : Flags := { f with z := v == 0#8, n := v.msb }

/-- `signed_overflow(a, b, r)` (R160). -/
def signedOverflow (a b r : Byte) : Bool := ((a ^^^ r) &&& (b ^^^ r) &&& 0x80#8) != 0#8

/-- The exact sum `a + v + C` of ADC, 0 to 511 (R161). -/
def carrySum (a v : Byte) (c : Bool) : Nat := a.toNat + v.toNat + bitNat c

/-- The 8-bit result of ADC, and of SBC on the complemented operand (R161, R162). -/
def addResult (a v : Byte) (c : Bool) : Byte := BitVec.ofNat 8 (carrySum a v c)

/-- C, V, Z and N after ADC, and after SBC on the complemented operand (R161, R162). -/
def Flags.afterAdd (a v : Byte) (f : Flags) : Flags :=
  let r := addResult a v f.c
  Flags.setZN r { f with c := decide (carrySum a v f.c > 0xFF), v := signedOverflow a v r }

/-- `compare(reg, v)`: C by unsigned order, Z by equality, N of the difference; V stays (R168). -/
def Flags.afterCompare (reg v : Byte) (f : Flags) : Flags :=
  { f with c := decide (reg.toNat ≥ v.toNat), z := reg == v, n := (reg - v).msb }

/-- BIT: Z from `A & v`, N and V from bits 7 and 6 of the operand itself (R172). -/
def Flags.afterBit (a v : Byte) (f : Flags) : Flags :=
  { f with z := (a &&& v) == 0#8, n := v.getLsbD 7, v := v.getLsbD 6 }

/-- A shift or rotate: C is the bit shifted out, Z and N from the result (R181 to R184). -/
def Flags.afterShift (out : Bool) (r : Byte) (f : Flags) : Flags := Flags.setZN r { f with c := out }

/-- A flag as bit k of a byte. -/
def flagBit (b : Bool) (k : Nat) : Byte := BitVec.ofNat 8 (bitNat b) <<< k

/-- `getPS()`: bit 5 is `running` (R33). -/
def getPS (s : State) : Byte :=
  flagBit s.flags.c 0 ||| flagBit s.flags.z 1 ||| flagBit s.flags.i 2 ||| flagBit s.flags.d 3 |||
  flagBit s.flags.b 4 ||| flagBit s.running 5 ||| flagBit s.flags.v 6 ||| flagBit s.flags.n 7

/-- The seven flags of a status byte; bit 5 is ignored (R34). -/
def Flags.ofByte (p : Byte) : Flags where
  c := p.getLsbD 0
  z := p.getLsbD 1
  i := p.getLsbD 2
  d := p.getLsbD 3
  b := p.getLsbD 4
  v := p.getLsbD 6
  n := p.getLsbD 7

/-- `setPS(b)`: the seven flags from a byte; `running` is not changed (R34). -/
def setPS (p : Byte) (s : State) : State := s.setFlags (Flags.ofByte p)

/-- `setZN` on the state (R150). -/
def setZN (v : Byte) (s : State) : State := s.setFlags (Flags.setZN v s.flags)

end Sys2Proof.Machine
end

