-- ==== Sys2Proof/Machine/Ops.lean ====
section
/-! DEFINITION. The named operations over memory, stack and control state; taking a break and returning from it. -/

namespace Sys2Proof.Machine

/-- `addr(v)` on the state's bus (R8). -/
def State.addr (s : State) (v : Nat) : Addr := s.cfg.bus.addr v

/-- The byte at an existing address, as the host or a claim reads it (R50). -/
def State.byteAt (s : State) (a : Addr) : Byte := Memory.read s.mem a.toNat

/-- `MemRead(a, 1)` (R55). -/
def memRead (a : Nat) (s : State) : Byte := Memory.memRead s.cfg.bus s.mem a

/-- `MemWrite(a, 1, v)`: write the byte, or record OutOfBoundsWrite and leave memory unchanged (R56). -/
def memWrite (a : Nat) (v : Byte) (s : State) : State :=
  if s.cfg.isWritable (s.addr a) then s.setMem (Memory.write s.mem (s.addr a).toNat v)
  else s.setFault .outOfBoundsWrite

/-- `ReadAddr(p)` (R58). -/
def readAddr (p : Nat) (s : State) : Addr := Memory.readAddr s.cfg.bus s.mem p

/-- `ReadAddrZP(z)` (R59). -/
def readAddrZP (z : Byte) (s : State) : Addr := Memory.readAddrZP s.cfg.bus s.mem z

/-- The stack byte SP designates is at `0x0100 + SP` (R25). -/
def stackAddr (sp : Byte) : Nat := 0x0100 + sp.toNat

/-- `Push(v)`: write at the stack top, then SP down, modulo 256 (R61, R63). -/
def push (v : Byte) (s : State) : State :=
  let s := memWrite (stackAddr s.sp) v s
  s.setSp (s.sp - 1#8)

/-- `Pop()`: SP up, modulo 256, then read (R62, R63). -/
def pop (s : State) : Byte × State :=
  let s := s.setSp (s.sp + 1#8)
  (memRead (stackAddr s.sp) s, s)

/-- Push a list of bytes, its head first. -/
def pushAll : List Byte → State → State
  | [], s => s
  | v :: vs, s => pushAll vs (push v s)

/-- Pop `n` bytes, the first popped at the head. -/
def popAll : Nat → State → List Byte × State
  | 0, s => ([], s)
  | n + 1, s =>
    let (v, s) := pop s
    let (vs, s) := popAll n s
    (v :: vs, s)

/-- `PushAddr(a)`: `AB` bytes, high byte first (R64). -/
def pushAddr (a : Addr) (s : State) : State := pushAll (leBytes s.cfg.bus.bytes a.toNat).reverse s

/-- `PopAddr()` before it is reduced to an address: `AB` bytes, low byte first (R64). -/
def popAddr (s : State) : Nat × State :=
  let (vs, s) := popAll s.cfg.bus.bytes s
  (leNat vs, s)

/-- PC past the opcode and its operand bytes: `PC_next` (R28, R112). -/
def advance (t : ModeTag) (s : State) : State :=
  s.setPc (s.addr (s.pc.toNat + 1 + t.nbytes s.cfg.bus))

/-- Add to the cycle counter (R38, R117). -/
def addCycles (n : Nat) (s : State) : State := s.setCycleCount (s.cfg.wrapCycles (s.cycleCount + n))

/-- A fault recorded in the step halts the engine at its end (R118). -/
def haltOnFault (s : State) : State :=
  if s.fault = .outOfBoundsWrite then s.setRunning false else s

/-- The end of a recognised instruction's step: the cost, plus 1 for a taken branch, then the halt of a
fault (R112, R117, R118). -/
def retire (cost : Nat) (taken : Bool) (s : State) : State :=
  haltOnFault (addCycles (cost + bitNat taken) s)

/-- The step of an unrecognised opcode: one cycle, and PC per `UNREC_PC_ADVANCE` (R116). -/
def unrecognised (s : State) : State :=
  (addCycles 1 s).setPc (s.addr (s.pc.toNat + s.cfg.unrecPcAdvance.toNat))

/-- Taking a break, the one trap entry (R265): push the return address and the status byte, taken before B
is set, set B, and load PC from the break vector (R250). I, the other flags and the stack page stay as they are. -/
def takeBreak (ret : Addr) (s : State) : State :=
  let s := pushAddr ret s
  let s := push (getPS s) s
  let s := s.setFlags { s.flags with b := true }
  s.setPc (readAddr s.cfg.brkVec s)

/-- BRK is also the power-off instruction: with `BRK_HALTS` the engine halts as the entry completes (R250, R265). -/
def powerOff (s : State) : State := if s.cfg.brkHalts then s.setRunning false else s

/-- Return from a break: the seven flags from the pulled status byte, then PC from the pulled address (R251, R266). -/
def returnFromBreak (s : State) : State :=
  let (p, s) := pop s
  let s := setPS p s
  let (a, s) := popAddr s
  s.setPc (s.addr a)

/-- The bytes at PC that an instruction could need: the opcode byte and `AB` more, each at `addr(PC_op + k)`
(R80, R83). Reading more than the instruction uses has no effect (R55, R68; log 9). -/
def fetchBytes (s : State) : List Byte :=
  (List.range (s.cfg.bus.bytes + 1)).map fun k => memRead (s.pc.toNat + k) s

/-- A step whose bytes are no instruction: an unrecognised opcode goes on by R116; bytes that end too early
are refused, which no fetch gives. -/
def decodeMiss (e : DecodeError) (s : State) : Outcome :=
  match e with
  | .unrecognised _ => .next (unrecognised s)
  | .incomplete => .refused .incompleteFetch

/-- Write bytes at consecutive addresses, whatever `WRITABLE` says: what the host does between steps (R296).
DESIGN CHOICE (log 18): a host address at or above 2^ADDR_BITS is reduced modulo the bus width. The spec reduces
the addresses the engine forms (D2) and is silent on the host's. Unsafe for a claim about such a host write. -/
def hostWriteAll : List Byte → Nat → State → State
  | [], _, s => s
  | v :: vs, a, s => hostWriteAll vs (a + 1) (s.setMem (Memory.write s.mem (s.addr a).toNat v))

end Sys2Proof.Machine
end

