-- ==== Sys2Proof/Machine/Operands.lean ====
section
/-! DEFINITION. The addressing-mode resolver, and the reading and writing of operands. -/

namespace Sys2Proof.Machine

/-- The four operand kinds (R130). -/
inductive Operand
  | none
  | acc
  | imm (v : Byte)
  | addr (ea : Addr)
  deriving DecidableEq, Repr

/-- The effective address of a memory mode in a state whose PC is already `PC_next` (R136 to R145). -/
def effectiveAddress (m : MemMode) (s : State) : Addr :=
  match m with
  | .zeroPage b => s.addr b.toNat
  | .zeroPageX b => s.addr ((b.toNat + s.x.toNat) % 256)
  | .zeroPageY b => s.addr ((b.toNat + s.y.toNat) % 256)
  | .absolute a => s.addr a.toNat
  | .absoluteX a => s.addr (a.toNat + s.x.toNat)
  | .absoluteY a => s.addr (a.toNat + s.y.toNat)
  | .indirect a => readAddr a.toNat s
  | .indirectX b => readAddrZP (b + s.x) s
  | .indirectY b => s.addr ((readAddrZP b s).toNat + s.y.toNat)
  | .relative r => s.cfg.bus.addrOfInt ((s.pc.toNat : Int) + s.cfg.relMode.disp r)

/-- `resolve(mode)` (R130, R133 to R145). It reads the index registers and memory, and writes nothing. -/
def resolve (m : AddressingMode) (s : State) : Operand :=
  match m with
  | .implied => .none
  | .accumulator => .acc
  | .immediate v => .imm v
  | .memory m => .addr (effectiveAddress m s)

/-- `operand_value(o)` (R131). It is undefined for `None`, and no instruction asks for it there (log 11). -/
def operandValue (o : Operand) (s : State) : Byte :=
  match o with
  | .none => Config.valueOfNoOperand
  | .acc => s.a
  | .imm v => v
  | .addr ea => memRead ea.toNat s

/-- `write_back(o, v)`, for the accumulator and for memory under the write-fault rule (R132). An operand of
another kind is no place to write to, and no instruction writes one (log 11). -/
def writeBack (o : Operand) (v : Byte) (s : State) : State :=
  match o with
  | .acc => s.setA v
  | .addr ea => memWrite ea.toNat v s
  | .none => s
  | .imm _ => s

/-- One instruction over a resolved operand: PC to `PC_next`, resolve, execute, account (R112, R113). -/
def perform (m : AddressingMode) (cost : Nat) (body : Operand → State → State) (s : State) : Outcome :=
  let s := advance m.tag s
  .next (retire cost false (body (resolve m s) s))

/-- The same for the instructions that use the effective address without reading it: stores, JMP, JSR (R131). -/
def performAt (m : MemMode) (cost : Nat) (body : Addr → State → State) (s : State) : Outcome :=
  let s := advance m.tag s
  .next (retire cost false (body (effectiveAddress m s) s))

/-- The same for an implied instruction (R133). -/
def performImplied (cost : Nat) (body : State → State) (s : State) : Outcome :=
  .next (retire cost false (body (advance .implied s)))

/-- The shared branch rule: PC to the target and one more cycle if the condition holds, else neither (R230). -/
def performBranch (r : Byte) (cost : Nat) (cond : Flags → Bool) (s : State) : Outcome :=
  let s := advance .relative s
  if cond s.flags then .next (retire cost true (s.setPc (effectiveAddress (.relative r) s)))
  else .next (retire cost false s)

end Sys2Proof.Machine
end

