-- ==== Sys2Proof/Machine/Alu.lean ====
section
/-! DEFINITION. Arithmetic, logic, compare and bit test (43_alu.md). First each mnemonic's execute rule, then one meaning per opcode. -/

namespace Sys2Proof.Machine

/-- A and the flags after an addition of `v` and C (R161). D is not read (R164). -/
def addToA (v : Byte) (s : State) : State :=
  (s.setA (addResult s.a v s.flags.c)).setFlags (Flags.afterAdd s.a v s.flags)

/-- ADC (R161). -/
def adc (o : Operand) (s : State) : State := addToA (operandValue o s) s

/-- SBC: ADC on the one's complement of the operand (R162). -/
def sbc (o : Operand) (s : State) : State := addToA (~~~(operandValue o s)) s

/-- A and Z, N from a logical result (R165 to R167). -/
def logicToA (r : Byte) (s : State) : State := setZN r (s.setA r)

/-- AND (R165). -/
def and (o : Operand) (s : State) : State := logicToA (s.a &&& operandValue o s) s

/-- ORA (R166). -/
def ora (o : Operand) (s : State) : State := logicToA (s.a ||| operandValue o s) s

/-- EOR (R167). -/
def eor (o : Operand) (s : State) : State := logicToA (s.a ^^^ operandValue o s) s

/-- CMP: `compare(A, v)` (R169). -/
def cmp (o : Operand) (s : State) : State := s.setFlags (Flags.afterCompare s.a (operandValue o s) s.flags)

/-- CPX: `compare(X, v)` (R170). -/
def cpx (o : Operand) (s : State) : State := s.setFlags (Flags.afterCompare s.x (operandValue o s) s.flags)

/-- CPY: `compare(Y, v)` (R171). -/
def cpy (o : Operand) (s : State) : State := s.setFlags (Flags.afterCompare s.y (operandValue o s) s.flags)

/-- BIT (R172). -/
def bit (o : Operand) (s : State) : State := s.setFlags (Flags.afterBit s.a (operandValue o s) s.flags)

/-- `ADC #$nn`, opcode 0x69, 2 cycles (R161). -/
def execAdcImm (v : Byte) (s : State) : Outcome := perform (.immediate v) 2 adc s

/-- `ADC $nn`, opcode 0x65, 3 cycles (R161). -/
def execAdcZp (b : Byte) (s : State) : Outcome := perform (.memory (.zeroPage b)) 3 adc s

/-- `ADC $nn,X`, opcode 0x75, 4 cycles (R161). -/
def execAdcZpX (b : Byte) (s : State) : Outcome := perform (.memory (.zeroPageX b)) 4 adc s

/-- `ADC $nnnn`, opcode 0x6D, 4 cycles (R161). -/
def execAdcAbs (a : Addr) (s : State) : Outcome := perform (.memory (.absolute a)) 4 adc s

/-- `ADC $nnnn,X`, opcode 0x7D, 4 cycles (R161). -/
def execAdcAbsX (a : Addr) (s : State) : Outcome := perform (.memory (.absoluteX a)) 4 adc s

/-- `ADC $nnnn,Y`, opcode 0x79, 4 cycles (R161). -/
def execAdcAbsY (a : Addr) (s : State) : Outcome := perform (.memory (.absoluteY a)) 4 adc s

/-- `ADC ($nn,X)`, opcode 0x61, 6 cycles (R161). -/
def execAdcIndX (b : Byte) (s : State) : Outcome := perform (.memory (.indirectX b)) 6 adc s

/-- `ADC ($nn),Y`, opcode 0x71, 5 cycles (R161). -/
def execAdcIndY (b : Byte) (s : State) : Outcome := perform (.memory (.indirectY b)) 5 adc s

/-- `SBC #$nn`, opcode 0xE9, 2 cycles (R162). -/
def execSbcImm (v : Byte) (s : State) : Outcome := perform (.immediate v) 2 sbc s

/-- `SBC $nn`, opcode 0xE5, 3 cycles (R162). -/
def execSbcZp (b : Byte) (s : State) : Outcome := perform (.memory (.zeroPage b)) 3 sbc s

/-- `SBC $nn,X`, opcode 0xF5, 4 cycles (R162). -/
def execSbcZpX (b : Byte) (s : State) : Outcome := perform (.memory (.zeroPageX b)) 4 sbc s

/-- `SBC $nnnn`, opcode 0xED, 4 cycles (R162). -/
def execSbcAbs (a : Addr) (s : State) : Outcome := perform (.memory (.absolute a)) 4 sbc s

/-- `SBC $nnnn,X`, opcode 0xFD, 4 cycles (R162). -/
def execSbcAbsX (a : Addr) (s : State) : Outcome := perform (.memory (.absoluteX a)) 4 sbc s

/-- `SBC $nnnn,Y`, opcode 0xF9, 4 cycles (R162). -/
def execSbcAbsY (a : Addr) (s : State) : Outcome := perform (.memory (.absoluteY a)) 4 sbc s

/-- `SBC ($nn,X)`, opcode 0xE1, 6 cycles (R162). -/
def execSbcIndX (b : Byte) (s : State) : Outcome := perform (.memory (.indirectX b)) 6 sbc s

/-- `SBC ($nn),Y`, opcode 0xF1, 5 cycles (R162). -/
def execSbcIndY (b : Byte) (s : State) : Outcome := perform (.memory (.indirectY b)) 5 sbc s

/-- `AND #$nn`, opcode 0x29, 2 cycles (R165). -/
def execAndImm (v : Byte) (s : State) : Outcome := perform (.immediate v) 2 and s

/-- `AND $nn`, opcode 0x25, 3 cycles (R165). -/
def execAndZp (b : Byte) (s : State) : Outcome := perform (.memory (.zeroPage b)) 3 and s

/-- `AND $nn,X`, opcode 0x35, 4 cycles (R165). -/
def execAndZpX (b : Byte) (s : State) : Outcome := perform (.memory (.zeroPageX b)) 4 and s

/-- `AND $nnnn`, opcode 0x2D, 4 cycles (R165). -/
def execAndAbs (a : Addr) (s : State) : Outcome := perform (.memory (.absolute a)) 4 and s

/-- `AND $nnnn,X`, opcode 0x3D, 4 cycles (R165). -/
def execAndAbsX (a : Addr) (s : State) : Outcome := perform (.memory (.absoluteX a)) 4 and s

/-- `AND $nnnn,Y`, opcode 0x39, 4 cycles (R165). -/
def execAndAbsY (a : Addr) (s : State) : Outcome := perform (.memory (.absoluteY a)) 4 and s

/-- `AND ($nn,X)`, opcode 0x21, 6 cycles (R165). -/
def execAndIndX (b : Byte) (s : State) : Outcome := perform (.memory (.indirectX b)) 6 and s

/-- `AND ($nn),Y`, opcode 0x31, 5 cycles (R165). -/
def execAndIndY (b : Byte) (s : State) : Outcome := perform (.memory (.indirectY b)) 5 and s

/-- `ORA #$nn`, opcode 0x09, 2 cycles (R166). -/
def execOraImm (v : Byte) (s : State) : Outcome := perform (.immediate v) 2 ora s

/-- `ORA $nn`, opcode 0x05, 3 cycles (R166). -/
def execOraZp (b : Byte) (s : State) : Outcome := perform (.memory (.zeroPage b)) 3 ora s

/-- `ORA $nn,X`, opcode 0x15, 4 cycles (R166). -/
def execOraZpX (b : Byte) (s : State) : Outcome := perform (.memory (.zeroPageX b)) 4 ora s

/-- `ORA $nnnn`, opcode 0x0D, 4 cycles (R166). -/
def execOraAbs (a : Addr) (s : State) : Outcome := perform (.memory (.absolute a)) 4 ora s

/-- `ORA $nnnn,X`, opcode 0x1D, 4 cycles (R166). -/
def execOraAbsX (a : Addr) (s : State) : Outcome := perform (.memory (.absoluteX a)) 4 ora s

/-- `ORA $nnnn,Y`, opcode 0x19, 4 cycles (R166). -/
def execOraAbsY (a : Addr) (s : State) : Outcome := perform (.memory (.absoluteY a)) 4 ora s

/-- `ORA ($nn,X)`, opcode 0x01, 6 cycles (R166). -/
def execOraIndX (b : Byte) (s : State) : Outcome := perform (.memory (.indirectX b)) 6 ora s

/-- `ORA ($nn),Y`, opcode 0x11, 5 cycles (R166). -/
def execOraIndY (b : Byte) (s : State) : Outcome := perform (.memory (.indirectY b)) 5 ora s

/-- `EOR #$nn`, opcode 0x49, 2 cycles (R167). -/
def execEorImm (v : Byte) (s : State) : Outcome := perform (.immediate v) 2 eor s

/-- `EOR $nn`, opcode 0x45, 3 cycles (R167). -/
def execEorZp (b : Byte) (s : State) : Outcome := perform (.memory (.zeroPage b)) 3 eor s

/-- `EOR $nn,X`, opcode 0x55, 4 cycles (R167). -/
def execEorZpX (b : Byte) (s : State) : Outcome := perform (.memory (.zeroPageX b)) 4 eor s

/-- `EOR $nnnn`, opcode 0x4D, 4 cycles (R167). -/
def execEorAbs (a : Addr) (s : State) : Outcome := perform (.memory (.absolute a)) 4 eor s

/-- `EOR $nnnn,X`, opcode 0x5D, 4 cycles (R167). -/
def execEorAbsX (a : Addr) (s : State) : Outcome := perform (.memory (.absoluteX a)) 4 eor s

/-- `EOR $nnnn,Y`, opcode 0x59, 4 cycles (R167). -/
def execEorAbsY (a : Addr) (s : State) : Outcome := perform (.memory (.absoluteY a)) 4 eor s

/-- `EOR ($nn,X)`, opcode 0x41, 6 cycles (R167). -/
def execEorIndX (b : Byte) (s : State) : Outcome := perform (.memory (.indirectX b)) 6 eor s

/-- `EOR ($nn),Y`, opcode 0x51, 5 cycles (R167). -/
def execEorIndY (b : Byte) (s : State) : Outcome := perform (.memory (.indirectY b)) 5 eor s

/-- `CMP #$nn`, opcode 0xC9, 2 cycles (R169). -/
def execCmpImm (v : Byte) (s : State) : Outcome := perform (.immediate v) 2 cmp s

/-- `CMP $nn`, opcode 0xC5, 3 cycles (R169). -/
def execCmpZp (b : Byte) (s : State) : Outcome := perform (.memory (.zeroPage b)) 3 cmp s

/-- `CMP $nn,X`, opcode 0xD5, 4 cycles (R169). -/
def execCmpZpX (b : Byte) (s : State) : Outcome := perform (.memory (.zeroPageX b)) 4 cmp s

/-- `CMP $nnnn`, opcode 0xCD, 4 cycles (R169). -/
def execCmpAbs (a : Addr) (s : State) : Outcome := perform (.memory (.absolute a)) 4 cmp s

/-- `CMP $nnnn,X`, opcode 0xDD, 4 cycles (R169). -/
def execCmpAbsX (a : Addr) (s : State) : Outcome := perform (.memory (.absoluteX a)) 4 cmp s

/-- `CMP $nnnn,Y`, opcode 0xD9, 4 cycles (R169). -/
def execCmpAbsY (a : Addr) (s : State) : Outcome := perform (.memory (.absoluteY a)) 4 cmp s

/-- `CMP ($nn,X)`, opcode 0xC1, 6 cycles (R169). -/
def execCmpIndX (b : Byte) (s : State) : Outcome := perform (.memory (.indirectX b)) 6 cmp s

/-- `CMP ($nn),Y`, opcode 0xD1, 5 cycles (R169). -/
def execCmpIndY (b : Byte) (s : State) : Outcome := perform (.memory (.indirectY b)) 5 cmp s

/-- `CPX #$nn`, opcode 0xE0, 2 cycles (R170). -/
def execCpxImm (v : Byte) (s : State) : Outcome := perform (.immediate v) 2 cpx s

/-- `CPX $nn`, opcode 0xE4, 3 cycles (R170). -/
def execCpxZp (b : Byte) (s : State) : Outcome := perform (.memory (.zeroPage b)) 3 cpx s

/-- `CPX $nnnn`, opcode 0xEC, 4 cycles (R170). -/
def execCpxAbs (a : Addr) (s : State) : Outcome := perform (.memory (.absolute a)) 4 cpx s

/-- `CPY #$nn`, opcode 0xC0, 2 cycles (R171). -/
def execCpyImm (v : Byte) (s : State) : Outcome := perform (.immediate v) 2 cpy s

/-- `CPY $nn`, opcode 0xC4, 3 cycles (R171). -/
def execCpyZp (b : Byte) (s : State) : Outcome := perform (.memory (.zeroPage b)) 3 cpy s

/-- `CPY $nnnn`, opcode 0xCC, 4 cycles (R171). -/
def execCpyAbs (a : Addr) (s : State) : Outcome := perform (.memory (.absolute a)) 4 cpy s

/-- `BIT $nn`, opcode 0x24, 3 cycles (R172). -/
def execBitZp (b : Byte) (s : State) : Outcome := perform (.memory (.zeroPage b)) 3 bit s

/-- `BIT $nnnn`, opcode 0x2C, 4 cycles (R172). -/
def execBitAbs (a : Addr) (s : State) : Outcome := perform (.memory (.absolute a)) 4 bit s

end Sys2Proof.Machine
end

