-- ==== Sys2Proof/Machine/Control.lean ====
section
/-! DEFINITION. Branches, jumps, subroutines, break and return (46_control_flow.md). First each mnemonic's execute rule, then one meaning per opcode. -/

namespace Sys2Proof.Machine

/-- JMP: `PC ← ea`; no byte at `ea` is read (R240). -/
def jmp (ea : Addr) (s : State) : State := s.setPc ea

/-- JSR: push the address of its own last operand byte, high byte first, and jump (R241). -/
def jsr (target : Addr) (s : State) : State :=
  (pushAddr (s.cfg.bus.addrOfInt ((s.pc.toNat : Int) - 1)) s).setPc target

/-- RTS: `PC ← addr(PopAddr() + 1)` (R242). -/
def rts (s : State) : State :=
  let (a, s) := popAddr s
  s.setPc (s.addr (a + 1))

/-- BRK: take the break, with the return address `PC_op + BRK_PC_OFFSET`, then power off (R250). -/
def brk (pcOp : Addr) (s : State) : State :=
  powerOff (takeBreak (s.addr (pcOp.toNat + s.cfg.brkPcOffset.toNat)) s)

/-- RTI (R251). -/
def rti (s : State) : State := returnFromBreak s

/-- `BCC label`, opcode 0x90, 2 cycles, one more if taken: `branch(C = 0)` (R231). -/
def execBcc (r : Byte) (s : State) : Outcome := performBranch r 2 (fun f => !f.c) s

/-- `BCS label`, opcode 0xB0, 2 cycles, one more if taken: `branch(C = 1)` (R232). -/
def execBcs (r : Byte) (s : State) : Outcome := performBranch r 2 (fun f => f.c) s

/-- `BEQ label`, opcode 0xF0, 2 cycles, one more if taken: `branch(Z = 1)` (R233). -/
def execBeq (r : Byte) (s : State) : Outcome := performBranch r 2 (fun f => f.z) s

/-- `BNE label`, opcode 0xD0, 2 cycles, one more if taken: `branch(Z = 0)` (R234). -/
def execBne (r : Byte) (s : State) : Outcome := performBranch r 2 (fun f => !f.z) s

/-- `BMI label`, opcode 0x30, 2 cycles, one more if taken: `branch(N = 1)` (R235). -/
def execBmi (r : Byte) (s : State) : Outcome := performBranch r 2 (fun f => f.n) s

/-- `BPL label`, opcode 0x10, 2 cycles, one more if taken: `branch(N = 0)` (R236). -/
def execBpl (r : Byte) (s : State) : Outcome := performBranch r 2 (fun f => !f.n) s

/-- `BVC label`, opcode 0x50, 2 cycles, one more if taken: `branch(V = 0)` (R237). -/
def execBvc (r : Byte) (s : State) : Outcome := performBranch r 2 (fun f => !f.v) s

/-- `BVS label`, opcode 0x70, 2 cycles, one more if taken: `branch(V = 1)` (R238). -/
def execBvs (r : Byte) (s : State) : Outcome := performBranch r 2 (fun f => f.v) s

/-- `JMP $nnnn`, opcode 0x4C, 3 cycles (R240). -/
def execJmpAbs (a : Addr) (s : State) : Outcome := performAt (.absolute a) 3 jmp s

/-- `JMP ($nnnn)`, opcode 0x6C, 5 cycles (R240). -/
def execJmpInd (a : Addr) (s : State) : Outcome := performAt (.indirect a) 5 jmp s

/-- `JSR $nnnn`, opcode 0x20, 6 cycles (R241). -/
def execJsr (a : Addr) (s : State) : Outcome := performAt (.absolute a) 6 jsr s

/-- `RTS`, opcode 0x60, 6 cycles (R242). -/
def execRts (s : State) : Outcome := performImplied 6 rts s

/-- `BRK`, opcode 0x00, 7 cycles (R250). -/
def execBrk (s : State) : Outcome := performImplied 7 (brk s.pc) s

/-- `RTI`, opcode 0x40, 6 cycles (R251). -/
def execRti (s : State) : Outcome := performImplied 6 rti s

end Sys2Proof.Machine
end

