-- ==== Sys2Proof/Machine/LoadStore.lean ====
section
/-! DEFINITION. Loads and stores (42_load_store.md). First each mnemonic's execute rule, then one meaning per opcode. -/

namespace Sys2Proof.Machine

/-- LDA: `v = operand_value(o); A ← v; setZN(v)` (R151). -/
def lda (o : Operand) (s : State) : State := setZN (operandValue o s) (s.setA (operandValue o s))

/-- LDX: `v = operand_value(o); X ← v; setZN(v)` (R152). -/
def ldx (o : Operand) (s : State) : State := setZN (operandValue o s) (s.setX (operandValue o s))

/-- LDY: `v = operand_value(o); Y ← v; setZN(v)` (R153). -/
def ldy (o : Operand) (s : State) : State := setZN (operandValue o s) (s.setY (operandValue o s))

/-- STA: `MemWrite(ea, 1, A)`, no flag (R154). -/
def sta (ea : Addr) (s : State) : State := memWrite ea.toNat s.a s

/-- STX: `MemWrite(ea, 1, X)`, no flag (R155). -/
def stx (ea : Addr) (s : State) : State := memWrite ea.toNat s.x s

/-- STY: `MemWrite(ea, 1, Y)`, no flag (R156). -/
def sty (ea : Addr) (s : State) : State := memWrite ea.toNat s.y s

/-- `LDA #$nn`, opcode 0xA9, 2 cycles (R151). -/
def execLdaImm (v : Byte) (s : State) : Outcome := perform (.immediate v) 2 lda s

/-- `LDA $nn`, opcode 0xA5, 3 cycles (R151). -/
def execLdaZp (b : Byte) (s : State) : Outcome := perform (.memory (.zeroPage b)) 3 lda s

/-- `LDA $nn,X`, opcode 0xB5, 4 cycles (R151). -/
def execLdaZpX (b : Byte) (s : State) : Outcome := perform (.memory (.zeroPageX b)) 4 lda s

/-- `LDA $nnnn`, opcode 0xAD, 4 cycles (R151). -/
def execLdaAbs (a : Addr) (s : State) : Outcome := perform (.memory (.absolute a)) 4 lda s

/-- `LDA $nnnn,X`, opcode 0xBD, 4 cycles (R151). -/
def execLdaAbsX (a : Addr) (s : State) : Outcome := perform (.memory (.absoluteX a)) 4 lda s

/-- `LDA $nnnn,Y`, opcode 0xB9, 4 cycles (R151). -/
def execLdaAbsY (a : Addr) (s : State) : Outcome := perform (.memory (.absoluteY a)) 4 lda s

/-- `LDA ($nn,X)`, opcode 0xA1, 6 cycles (R151). -/
def execLdaIndX (b : Byte) (s : State) : Outcome := perform (.memory (.indirectX b)) 6 lda s

/-- `LDA ($nn),Y`, opcode 0xB1, 5 cycles (R151). -/
def execLdaIndY (b : Byte) (s : State) : Outcome := perform (.memory (.indirectY b)) 5 lda s

/-- `LDX #$nn`, opcode 0xA2, 2 cycles (R152). -/
def execLdxImm (v : Byte) (s : State) : Outcome := perform (.immediate v) 2 ldx s

/-- `LDX $nn`, opcode 0xA6, 3 cycles (R152). -/
def execLdxZp (b : Byte) (s : State) : Outcome := perform (.memory (.zeroPage b)) 3 ldx s

/-- `LDX $nn,Y`, opcode 0xB6, 4 cycles (R152). -/
def execLdxZpY (b : Byte) (s : State) : Outcome := perform (.memory (.zeroPageY b)) 4 ldx s

/-- `LDX $nnnn`, opcode 0xAE, 4 cycles (R152). -/
def execLdxAbs (a : Addr) (s : State) : Outcome := perform (.memory (.absolute a)) 4 ldx s

/-- `LDX $nnnn,Y`, opcode 0xBE, 4 cycles (R152). -/
def execLdxAbsY (a : Addr) (s : State) : Outcome := perform (.memory (.absoluteY a)) 4 ldx s

/-- `LDY #$nn`, opcode 0xA0, 2 cycles (R153). -/
def execLdyImm (v : Byte) (s : State) : Outcome := perform (.immediate v) 2 ldy s

/-- `LDY $nn`, opcode 0xA4, 3 cycles (R153). -/
def execLdyZp (b : Byte) (s : State) : Outcome := perform (.memory (.zeroPage b)) 3 ldy s

/-- `LDY $nn,X`, opcode 0xB4, 4 cycles (R153). -/
def execLdyZpX (b : Byte) (s : State) : Outcome := perform (.memory (.zeroPageX b)) 4 ldy s

/-- `LDY $nnnn`, opcode 0xAC, 4 cycles (R153). -/
def execLdyAbs (a : Addr) (s : State) : Outcome := perform (.memory (.absolute a)) 4 ldy s

/-- `LDY $nnnn,X`, opcode 0xBC, 4 cycles (R153). -/
def execLdyAbsX (a : Addr) (s : State) : Outcome := perform (.memory (.absoluteX a)) 4 ldy s

/-- `STA $nn`, opcode 0x85, 3 cycles (R154). -/
def execStaZp (b : Byte) (s : State) : Outcome := performAt (.zeroPage b) 3 sta s

/-- `STA $nn,X`, opcode 0x95, 4 cycles (R154). -/
def execStaZpX (b : Byte) (s : State) : Outcome := performAt (.zeroPageX b) 4 sta s

/-- `STA $nnnn`, opcode 0x8D, 4 cycles (R154). -/
def execStaAbs (a : Addr) (s : State) : Outcome := performAt (.absolute a) 4 sta s

/-- `STA $nnnn,X`, opcode 0x9D, 5 cycles (R154). -/
def execStaAbsX (a : Addr) (s : State) : Outcome := performAt (.absoluteX a) 5 sta s

/-- `STA $nnnn,Y`, opcode 0x99, 5 cycles (R154). -/
def execStaAbsY (a : Addr) (s : State) : Outcome := performAt (.absoluteY a) 5 sta s

/-- `STA ($nn,X)`, opcode 0x81, 6 cycles (R154). -/
def execStaIndX (b : Byte) (s : State) : Outcome := performAt (.indirectX b) 6 sta s

/-- `STA ($nn),Y`, opcode 0x91, 6 cycles (R154). -/
def execStaIndY (b : Byte) (s : State) : Outcome := performAt (.indirectY b) 6 sta s

/-- `STX $nn`, opcode 0x86, 3 cycles (R155). -/
def execStxZp (b : Byte) (s : State) : Outcome := performAt (.zeroPage b) 3 stx s

/-- `STX $nn,Y`, opcode 0x96, 4 cycles (R155). -/
def execStxZpY (b : Byte) (s : State) : Outcome := performAt (.zeroPageY b) 4 stx s

/-- `STX $nnnn`, opcode 0x8E, 4 cycles (R155). -/
def execStxAbs (a : Addr) (s : State) : Outcome := performAt (.absolute a) 4 stx s

/-- `STY $nn`, opcode 0x84, 3 cycles (R156). -/
def execStyZp (b : Byte) (s : State) : Outcome := performAt (.zeroPage b) 3 sty s

/-- `STY $nn,X`, opcode 0x94, 4 cycles (R156). -/
def execStyZpX (b : Byte) (s : State) : Outcome := performAt (.zeroPageX b) 4 sty s

/-- `STY $nnnn`, opcode 0x8C, 4 cycles (R156). -/
def execStyAbs (a : Addr) (s : State) : Outcome := performAt (.absolute a) 4 sty s

end Sys2Proof.Machine
end

