-- ==== Sys2Proof/Machine/Shift.lean ====
section
/-! DEFINITION. Shifts, rotates, increments and decrements (44_shift_incdec.md). First each mnemonic's execute rule, then one meaning per opcode. -/

namespace Sys2Proof.Machine

/-- The read-modify-write pattern of the shifts: write `r` back, C from the bit shifted out, Z and N from `r`.
The flags change even if the write is suppressed (R180). -/
def shiftInto (o : Operand) (out : Bool) (r : Byte) (s : State) : State :=
  let s := writeBack o r s
  s.setFlags (Flags.afterShift out r s.flags)

/-- ASL: `r = (v << 1) & 0xFF`, C from bit 7 (R181). -/
def asl (o : Operand) (s : State) : State :=
  let v := operandValue o s
  shiftInto o (v.getLsbD 7) (v <<< 1) s

/-- LSR: `r = v >> 1`, C from bit 0; N is then 0 (R182). -/
def lsr (o : Operand) (s : State) : State :=
  let v := operandValue o s
  shiftInto o (v.getLsbD 0) (v >>> 1) s

/-- ROL: `r = ((v << 1) | C_old) & 0xFF`, C from bit 7 (R183). -/
def rol (o : Operand) (s : State) : State :=
  let v := operandValue o s
  shiftInto o (v.getLsbD 7) ((v <<< 1) ||| flagBit s.flags.c 0) s

/-- ROR: `r = (v >> 1) | (C_old << 7)`, C from bit 0 (R184). -/
def ror (o : Operand) (s : State) : State :=
  let v := operandValue o s
  shiftInto o (v.getLsbD 0) ((v >>> 1) ||| flagBit s.flags.c 7) s

/-- INC: `r = (v + 1) & 0xFF`, Z and N (R185). -/
def inc (o : Operand) (s : State) : State :=
  let r := operandValue o s + 1#8
  setZN r (writeBack o r s)

/-- DEC: `r = (v - 1) & 0xFF`, Z and N (R186). -/
def dec (o : Operand) (s : State) : State :=
  let r := operandValue o s - 1#8
  setZN r (writeBack o r s)

/-- INX (R187). -/
def inx (s : State) : State := setZN (s.x + 1#8) (s.setX (s.x + 1#8))

/-- INY (R188). -/
def iny (s : State) : State := setZN (s.y + 1#8) (s.setY (s.y + 1#8))

/-- DEX (R189). -/
def dex (s : State) : State := setZN (s.x - 1#8) (s.setX (s.x - 1#8))

/-- DEY (R190). -/
def dey (s : State) : State := setZN (s.y - 1#8) (s.setY (s.y - 1#8))

/-- `ASL A`, opcode 0x0A, 2 cycles (R181). -/
def execAslAcc (s : State) : Outcome := perform .accumulator 2 asl s

/-- `ASL $nn`, opcode 0x06, 5 cycles (R181). -/
def execAslZp (b : Byte) (s : State) : Outcome := perform (.memory (.zeroPage b)) 5 asl s

/-- `ASL $nn,X`, opcode 0x16, 6 cycles (R181). -/
def execAslZpX (b : Byte) (s : State) : Outcome := perform (.memory (.zeroPageX b)) 6 asl s

/-- `ASL $nnnn`, opcode 0x0E, 6 cycles (R181). -/
def execAslAbs (a : Addr) (s : State) : Outcome := perform (.memory (.absolute a)) 6 asl s

/-- `ASL $nnnn,X`, opcode 0x1E, 7 cycles (R181). -/
def execAslAbsX (a : Addr) (s : State) : Outcome := perform (.memory (.absoluteX a)) 7 asl s

/-- `LSR A`, opcode 0x4A, 2 cycles (R182). -/
def execLsrAcc (s : State) : Outcome := perform .accumulator 2 lsr s

/-- `LSR $nn`, opcode 0x46, 5 cycles (R182). -/
def execLsrZp (b : Byte) (s : State) : Outcome := perform (.memory (.zeroPage b)) 5 lsr s

/-- `LSR $nn,X`, opcode 0x56, 6 cycles (R182). -/
def execLsrZpX (b : Byte) (s : State) : Outcome := perform (.memory (.zeroPageX b)) 6 lsr s

/-- `LSR $nnnn`, opcode 0x4E, 6 cycles (R182). -/
def execLsrAbs (a : Addr) (s : State) : Outcome := perform (.memory (.absolute a)) 6 lsr s

/-- `LSR $nnnn,X`, opcode 0x5E, 7 cycles (R182). -/
def execLsrAbsX (a : Addr) (s : State) : Outcome := perform (.memory (.absoluteX a)) 7 lsr s

/-- `ROL A`, opcode 0x2A, 2 cycles (R183). -/
def execRolAcc (s : State) : Outcome := perform .accumulator 2 rol s

/-- `ROL $nn`, opcode 0x26, 5 cycles (R183). -/
def execRolZp (b : Byte) (s : State) : Outcome := perform (.memory (.zeroPage b)) 5 rol s

/-- `ROL $nn,X`, opcode 0x36, 6 cycles (R183). -/
def execRolZpX (b : Byte) (s : State) : Outcome := perform (.memory (.zeroPageX b)) 6 rol s

/-- `ROL $nnnn`, opcode 0x2E, 6 cycles (R183). -/
def execRolAbs (a : Addr) (s : State) : Outcome := perform (.memory (.absolute a)) 6 rol s

/-- `ROL $nnnn,X`, opcode 0x3E, 7 cycles (R183). -/
def execRolAbsX (a : Addr) (s : State) : Outcome := perform (.memory (.absoluteX a)) 7 rol s

/-- `ROR A`, opcode 0x6A, 2 cycles (R184). -/
def execRorAcc (s : State) : Outcome := perform .accumulator 2 ror s

/-- `ROR $nn`, opcode 0x66, 5 cycles (R184). -/
def execRorZp (b : Byte) (s : State) : Outcome := perform (.memory (.zeroPage b)) 5 ror s

/-- `ROR $nn,X`, opcode 0x76, 6 cycles (R184). -/
def execRorZpX (b : Byte) (s : State) : Outcome := perform (.memory (.zeroPageX b)) 6 ror s

/-- `ROR $nnnn`, opcode 0x6E, 6 cycles (R184). -/
def execRorAbs (a : Addr) (s : State) : Outcome := perform (.memory (.absolute a)) 6 ror s

/-- `ROR $nnnn,X`, opcode 0x7E, 7 cycles (R184). -/
def execRorAbsX (a : Addr) (s : State) : Outcome := perform (.memory (.absoluteX a)) 7 ror s

/-- `INC $nn`, opcode 0xE6, 5 cycles (R185). -/
def execIncZp (b : Byte) (s : State) : Outcome := perform (.memory (.zeroPage b)) 5 inc s

/-- `INC $nn,X`, opcode 0xF6, 6 cycles (R185). -/
def execIncZpX (b : Byte) (s : State) : Outcome := perform (.memory (.zeroPageX b)) 6 inc s

/-- `INC $nnnn`, opcode 0xEE, 6 cycles (R185). -/
def execIncAbs (a : Addr) (s : State) : Outcome := perform (.memory (.absolute a)) 6 inc s

/-- `INC $nnnn,X`, opcode 0xFE, 7 cycles (R185). -/
def execIncAbsX (a : Addr) (s : State) : Outcome := perform (.memory (.absoluteX a)) 7 inc s

/-- `DEC $nn`, opcode 0xC6, 5 cycles (R186). -/
def execDecZp (b : Byte) (s : State) : Outcome := perform (.memory (.zeroPage b)) 5 dec s

/-- `DEC $nn,X`, opcode 0xD6, 6 cycles (R186). -/
def execDecZpX (b : Byte) (s : State) : Outcome := perform (.memory (.zeroPageX b)) 6 dec s

/-- `DEC $nnnn`, opcode 0xCE, 6 cycles (R186). -/
def execDecAbs (a : Addr) (s : State) : Outcome := perform (.memory (.absolute a)) 6 dec s

/-- `DEC $nnnn,X`, opcode 0xDE, 7 cycles (R186). -/
def execDecAbsX (a : Addr) (s : State) : Outcome := perform (.memory (.absoluteX a)) 7 dec s

/-- `INX`, opcode 0xE8, 2 cycles (R187). -/
def execInx (s : State) : Outcome := performImplied 2 inx s

/-- `INY`, opcode 0xC8, 2 cycles (R188). -/
def execIny (s : State) : Outcome := performImplied 2 iny s

/-- `DEX`, opcode 0xCA, 2 cycles (R189). -/
def execDex (s : State) : Outcome := performImplied 2 dex s

/-- `DEY`, opcode 0x88, 2 cycles (R190). -/
def execDey (s : State) : Outcome := performImplied 2 dey s

end Sys2Proof.Machine
end

