-- ==== Sys2Proof/Machine/Transfer.lean ====
section
/-! DEFINITION. Transfers, flag instructions, stack instructions and NOP (45_transfer_flag_stack.md). First each mnemonic's execute rule, then one meaning per opcode. -/

namespace Sys2Proof.Machine

/-- TAX: `X ← A; setZN(X)` (R200). -/
def tax (s : State) : State := setZN s.a (s.setX s.a)

/-- TAY: `Y ← A; setZN(Y)` (R201). -/
def tay (s : State) : State := setZN s.a (s.setY s.a)

/-- TXA: `A ← X; setZN(A)` (R202). -/
def txa (s : State) : State := setZN s.x (s.setA s.x)

/-- TYA: `A ← Y; setZN(A)` (R203). -/
def tya (s : State) : State := setZN s.y (s.setA s.y)

/-- TSX: `X ← SP; setZN(X)` (R204). -/
def tsx (s : State) : State := setZN s.sp (s.setX s.sp)

/-- TXS: `SP ← X`, no flag (R205). -/
def txs (s : State) : State := s.setSp s.x

/-- CLC (R206). -/
def clc (s : State) : State := s.setFlags { s.flags with c := false }

/-- SEC (R207). -/
def sec (s : State) : State := s.setFlags { s.flags with c := true }

/-- CLI; it enables nothing (R208, R271). -/
def cli (s : State) : State := s.setFlags { s.flags with i := false }

/-- SEI; it masks nothing (R209, R271). -/
def sei (s : State) : State := s.setFlags { s.flags with i := true }

/-- CLD (R210). -/
def cld (s : State) : State := s.setFlags { s.flags with d := false }

/-- SED (R211). -/
def sed (s : State) : State := s.setFlags { s.flags with d := true }

/-- CLV (R212). -/
def clv (s : State) : State := s.setFlags { s.flags with v := false }

/-- PHA: `Push(A)` (R213). -/
def pha (s : State) : State := push s.a s

/-- PLA: `A ← Pop(); setZN(A)` (R214). -/
def pla (s : State) : State :=
  let (v, s) := pop s
  setZN v (s.setA v)

/-- PHP: `Push(getPS())`, B as it is and bit 5 as `running` (R215). -/
def php (s : State) : State := push (getPS s) s

/-- PLP: `setPS(Pop())`; `running` stays (R216). -/
def plp (s : State) : State :=
  let (v, s) := pop s
  setPS v s

/-- NOP: nothing (R217). -/
def nop (s : State) : State := s

/-- `TAX`, opcode 0xAA, 2 cycles (R200). -/
def execTax (s : State) : Outcome := performImplied 2 tax s

/-- `TAY`, opcode 0xA8, 2 cycles (R201). -/
def execTay (s : State) : Outcome := performImplied 2 tay s

/-- `TXA`, opcode 0x8A, 2 cycles (R202). -/
def execTxa (s : State) : Outcome := performImplied 2 txa s

/-- `TYA`, opcode 0x98, 2 cycles (R203). -/
def execTya (s : State) : Outcome := performImplied 2 tya s

/-- `TSX`, opcode 0xBA, 2 cycles (R204). -/
def execTsx (s : State) : Outcome := performImplied 2 tsx s

/-- `TXS`, opcode 0x9A, 2 cycles (R205). -/
def execTxs (s : State) : Outcome := performImplied 2 txs s

/-- `CLC`, opcode 0x18, 2 cycles (R206). -/
def execClc (s : State) : Outcome := performImplied 2 clc s

/-- `SEC`, opcode 0x38, 2 cycles (R207). -/
def execSec (s : State) : Outcome := performImplied 2 sec s

/-- `CLI`, opcode 0x58, 2 cycles (R208). -/
def execCli (s : State) : Outcome := performImplied 2 cli s

/-- `SEI`, opcode 0x78, 2 cycles (R209). -/
def execSei (s : State) : Outcome := performImplied 2 sei s

/-- `CLD`, opcode 0xD8, 2 cycles (R210). -/
def execCld (s : State) : Outcome := performImplied 2 cld s

/-- `SED`, opcode 0xF8, 2 cycles (R211). -/
def execSed (s : State) : Outcome := performImplied 2 sed s

/-- `CLV`, opcode 0xB8, 2 cycles (R212). -/
def execClv (s : State) : Outcome := performImplied 2 clv s

/-- `PHA`, opcode 0x48, 3 cycles (R213). -/
def execPha (s : State) : Outcome := performImplied 3 pha s

/-- `PLA`, opcode 0x68, 4 cycles (R214). -/
def execPla (s : State) : Outcome := performImplied 4 pla s

/-- `PHP`, opcode 0x08, 3 cycles (R215). -/
def execPhp (s : State) : Outcome := performImplied 3 php s

/-- `PLP`, opcode 0x28, 4 cycles (R216). -/
def execPlp (s : State) : Outcome := performImplied 4 plp s

/-- `NOP`, opcode 0xEA, 2 cycles (R217). -/
def execNop (s : State) : Outcome := performImplied 2 nop s

end Sys2Proof.Machine
end

