-- ==== Sys2Proof/Machine/Step.lean ====
section
/-! DEFINITION. One step of the engine, and where the host's word stands for the next fetch. -/

namespace Sys2Proof.Machine

/-- One step (R112): fetch and decode at PC, then the instruction's meaning, or the diagnostic step of an
unrecognised byte. A halted engine has no step (R110). -/
def step (s : State) : Host.Outcome State Fault Refusal :=
  if s.running then
    match decode s.cfg.bus (fetchBytes s) with
    | .ok (i, _) => exec i s
    | .error e => decodeMiss e s
  else .refused .halted

/-- `s` with the instruction `w` stored where the next step fetches: the table's bytes from PC on, written as
the host's loader writes them (R296), as many as the longest instruction has. Nothing else changes, so a
halted state stays halted (log 5). -/
def State.withFetchWord (s : State) (nbits w : Nat) : State :=
  hostWriteAll ((tableBytes nbits w).take (s.cfg.bus.bytes + 1)) s.pc.toNat s

end Sys2Proof.Machine
end

