-- ==== Sys2Proof/Machine/HostActions.lean ====
section
/-! DEFINITION. What the host does between steps: initialise, load, reset, device writes, exit status (R296). -/

namespace Sys2Proof.Machine

/-- `initialise()`: 0x00 at every address from 0x0200 to `RAM_END`, nothing else (R291). -/
def initialise (s : State) : State := s.setMem (Memory.zeroRange 0x0200 s.cfg.ramEnd s.mem)

/-- A host write of one byte, by the loader or a device, bypassing `WRITABLE` (R296), at the address reduced modulo
the bus width (log 18). -/
def hostWrite (a : Nat) (v : Byte) (s : State) : State := hostWriteAll [v] a s

/-- A device's write to the IO window between steps: only IO-window bytes (R296). -/
def deviceWrite (a : Addr) (v : Byte) (s : State) : State :=
  if s.cfg.inIoWindow a then hostWrite a.toNat v s else s

/-- A token of a program image: set the load cursor, or write one byte at it and advance it (R301). -/
inductive ImageToken
  | cursor (a : Nat)
  | byte (v : Byte)
  deriving DecidableEq, Repr

/-- A hex digit of an image, lower-case (R301). -/
def hexDigit (c : Char) : Option Nat :=
  if '0'.toNat ≤ c.toNat ∧ c.toNat ≤ '9'.toNat then some (c.toNat - '0'.toNat)
  else if 'a'.toNat ≤ c.toNat ∧ c.toNat ≤ 'f'.toNat then some (10 + c.toNat - 'a'.toNat)
  else none

/-- The number that hex digits write, most significant first, continuing `n`. -/
def hexFrom : Nat → List Char → Option Nat
  | n, [] => some n
  | n, c :: cs =>
    match hexDigit c with
    | some d => hexFrom (16 * n + d) cs
    | none => none

/-- At least one hex digit. -/
def hexNumber (cs : List Char) : Option Nat := if cs.isEmpty then none else hexFrom 0 cs

/-- The text of one token, without its `;`: `m<hex-address>` or `<hex-byte>` (R301). DESIGN CHOICE (log 16): either
may have any number of digits, at least one, if a byte's value is below 256. R301 does not say how many. Unsafe for a claim about
such a text alone. -/
def tokenOfText : List Char → Option ImageToken
  | 'm' :: cs => (hexNumber cs).map .cursor
  | cs =>
    match hexNumber cs with
    | some n => if n < 256 then some (.byte (BitVec.ofNat 8 n)) else none
    | none => none

/-- Read an image's text: `;` ends a token, `\n` ends a line (R301). `held` is the open token's text, last character
first. DESIGN CHOICE (log 16): R301 describes one token on each line, and more is accepted: several tokens on a
line, blank lines, a last line without its newline, an empty text. Other text is no image. Unsafe for a
claim about such a text alone. -/
def imageOfText : List Char → List Char → Option (List ImageToken)
  | [], held => if held.isEmpty then some [] else none
  | c :: cs, held =>
    if c = ';' then
      match tokenOfText held.reverse, imageOfText cs [] with
      | some t, some ts => some (t :: ts)
      | _, _ => none
    else if c = '\n' ∧ held.isEmpty then imageOfText cs []
    else imageOfText cs (c :: held)

/-- Load a program image from a cursor on (R296, R301); a cursor past the top of memory is wrapped (log 18). -/
def loadImage : List ImageToken → Nat → State → State
  | [], _, s => s
  | .cursor a :: ts, _, s => loadImage ts a s
  | .byte v :: ts, at_, s => loadImage ts (at_ + 1) (hostWrite at_ v s)

/-- `reset()` on any state: every register and control bit, PC from the reset vector, memory and parameters
as they were (R290). -/
def resetEngine (s : State) : State where
  a := 0x00
  x := 0x00
  y := 0x00
  sp := s.cfg.resetSp
  pc := readAddr s.cfg.resetVec s
  flags := Flags.clear
  running := true
  fault := .none
  cycleCount := 0
  mem := s.mem
  cfg := s.cfg

/-- Boot: initialise, load, reset (R293). -/
def boot (image : List ImageToken) (s : State) : State := resetEngine (loadImage image 0 (initialise s))

/-- The process exit status: 0 for no fault, 1 for OutOfBoundsWrite (R37, R296). -/
def exitStatus (s : State) : Nat :=
  match s.fault with
  | .none => 0
  | .outOfBoundsWrite => 1

end Sys2Proof.Machine
end

