-- ==== Sys2Proof/Machine/Observe.lean ====
section
/-! DEFINITION. What a step gives the caller beside the next state: outcome, diagnostic event, trace view. None
of it is state (R40). DESIGN CHOICE (log 10): functions beside `step`, whose result type is the host's. Safe. -/

namespace Sys2Proof.Machine

/-- The diagnostic event of R116: the opcode byte and its address, and no text (R40, D35). -/
inductive Event
  | unrecognised (op : Byte) (at_ : Addr)
  deriving DecidableEq, Repr

/-- Why the engine is halted (R120, R297). -/
inductive HaltReason
  | brk
  | fault
  deriving DecidableEq, Repr

/-- How a step ended (R120). -/
inductive StepEnd
  | goesOn
  | halted (r : HaltReason)
  deriving DecidableEq, Repr

/-- The instruction the next step runs, or none for an unrecognised byte (R111). -/
def nextInstr (s : State) : Option Instr :=
  match decode s.cfg.bus (fetchBytes s) with
  | .ok (i, _) => some i
  | .error _ => none

/-- The event the step of a state emits (R116). -/
def stepEvent (s : State) : Option Event :=
  if s.running then
    match decode s.cfg.bus (fetchBytes s) with
    | .error (.unrecognised op) => some (.unrecognised op s.pc)
    | _ => none
  else none

/-- How a state after a step reads: it goes on, or it halted, a fault taking precedence over BRK (R120). -/
def stepEnd (s : State) : StepEnd :=
  if s.running then .goesOn
  else match s.fault with
    | .outOfBoundsWrite => .halted .fault
    | .none => .halted .brk

/-- A run under fuel: steps until the engine is halted or the fuel is spent (R297, R299). -/
def run : Nat → State → State
  | 0, s => s
  | n + 1, s =>
    match step s with
    | .next t => run n t
    | _ => s

/-- The bytes an instruction pushes, in push order, from the state it starts in (R66, R215, R241, R250). -/
def pushedBytes (i : Instr) (s : State) : List Byte :=
  match i.mnemonic with
  | .pha => [s.a]
  | .php => [getPS s]
  | .jsr =>
    (leBytes s.cfg.bus.bytes (s.cfg.bus.addrOfInt (((advance .absolute s).pc.toNat : Int) - 1)).toNat).reverse
  | .brk =>
    (leBytes s.cfg.bus.bytes (s.addr (s.pc.toNat + s.cfg.brkPcOffset.toNat)).toNat).reverse ++ [getPS s]
  | _ => []

/-- How many bytes an instruction pops (R66). -/
def popCount (bus : BusWidth) (i : Instr) : Nat :=
  match i.mnemonic with
  | .pla => 1
  | .plp => 1
  | .rts => bus.bytes
  | .rti => bus.bytes + 1
  | _ => 0

/-- The trace view of one step: opcode, its address, registers and flags after the step, the stack bytes pushed
and popped (R40, R276). -/
structure TraceView where
  opcode : Byte
  address : Addr
  a : Byte
  x : Byte
  y : Byte
  sp : Byte
  pc : Addr
  flags : Flags
  pushed : List Byte
  popped : List Byte
  deriving DecidableEq, Repr

/-- The trace view of the step from `s` to `t`. DESIGN CHOICE (log 19): R40 and R276 name an 'address' and do not say
which, and it is PC_op, the address of the opcode byte, alone; the stack values are the values pushed, suppressed
pushes among them, and the values popped. Unsafe for a claim about the trace alone: no state depends on it. -/
def traceView (s t : State) : TraceView where
  opcode := memRead s.pc.toNat s
  address := s.pc
  a := t.a
  x := t.x
  y := t.y
  sp := t.sp
  pc := t.pc
  flags := t.flags
  pushed := match nextInstr s with
    | some i => pushedBytes i s
    | none => []
  popped := match nextInstr s with
    | some i => (popAll (popCount s.cfg.bus i) s).1
    | none => []

end Sys2Proof.Machine
end

