-- ==== Sys2Proof/Safety.lean ====
section
/-! DEFINITION. The invariant of the machine, and what a safe run is. -/

namespace Sys2Proof

open Sys2Proof.Machine

/-- What every step keeps: memory in canonical form and inside the address space (R50), PC an address of the
bus (R27), a running engine without a fault (R119), the cycle counter within its width (R38). -/
structure Inv (s : State) : Prop where
  memWf : Memory.wf s.mem
  memInSpace : Memory.inSpace s.cfg.bus s.mem
  pcInSpace : s.pc.toNat < s.cfg.bus.size
  runningNoFault : s.running = true → s.fault = .none
  cyclesFit : s.cfg.wrapCycles s.cycleCount = s.cycleCount

/-- The run has ended (R297). -/
def Ended (s : State) : Prop := s.running = false

/-- The run has ended without a fault: "a claim of success takes `fault = none` at the end as a premise" (R297). -/
def EndedWell (s : State) : Prop := s.running = false ∧ s.fault = .none

/-- No write has been suppressed since reset. -/
def Safe (s : State) : Prop := s.fault = .none

end Sys2Proof
end

