-- ==== Sys2Proof/Certificates/Slice0/Obligations.lean ====
section
/-! DEFINITION. The statements about the model, and the few notions they are written with. -/

open Sys2Proof Sys2Proof.Machine

namespace Sys2Proof.Claims

/-! ## Notions

The statements about one instruction take `fault = none` as their premise: a state with a fault recorded is halted and
has no step (R119, R110), and `FaultStaysAndHalts` says what the meaning does there. -/

/-- The state the execute phase of `i` sees: PC is already `PC_next` (R28, R112). -/
def atExecute (i : Instr) (s : State) : State := advance i.mode.tag s

/-- The value `i` reads from its operand (R131). -/
def operandOf (i : Instr) (s : State) : Byte :=
  operandValue (resolve i.mode (atExecute i s)) (atExecute i s)

/-- `PC_next`: the address after the last operand byte (R28). -/
def pcNext (i : Instr) (s : State) : Addr := s.addr (s.pc.toNat + 1 + i.mode.tag.nbytes s.cfg.bus)

/-- What every recognised instruction does whatever else it does: PC to `PC_next`, the base cost counted (R112). -/
def retired (i : Instr) (s : State) : State :=
  { s with pc := pcNext i s, cycleCount := s.cfg.wrapCycles (s.cycleCount + i.baseCycles) }

/-- Z is set for zero, N is bit 7, every other flag stays (R150). -/
def znOf (v : Byte) (f : Flags) : Flags := { f with z := decide (v = 0), n := decide (128 ≤ v.toNat) }

/-- The forms of a mnemonic are exactly these opcodes with these modes and base cycles (the Encoding item of its rule). -/
def FormsAre (m : Mnemonic) (forms : List (Byte × ModeTag × Nat)) : Prop :=
  (∀ i : Instr, i.mnemonic = m → (i.opcode, i.mode.tag, i.baseCycles) ∈ forms) ∧
  ∀ f ∈ forms, ∃ i : Instr, i.mnemonic = m ∧ (i.opcode, i.mode.tag, i.baseCycles) = f

/-- `i` stores `v` at its effective address and leaves the flags `f`. Where the address is writable the byte
changes and no other; where it is not, no byte changes, the fault is recorded and the engine halts (R56, R118). -/
def StoresByte (i : Instr) (s : State) (v : Byte) (f : Flags) : Prop :=
  ∀ m : MemMode, i.mode = .memory m →
    let ea := effectiveAddress m (atExecute i s)
    (s.cfg.isWritable ea = true →
      ∃ t, exec i s = .next t ∧ t = { retired i s with flags := f, mem := t.mem } ∧
        ∀ a : Addr, t.byteAt a = if a = ea then v else s.byteAt a) ∧
    (s.cfg.isWritable ea = false →
      exec i s = .next { retired i s with flags := f, fault := .outOfBoundsWrite, running := false })

/-- A read-modify-write of result `r` with flags `f`, on the accumulator or in memory (R180). -/
def WritesBack (i : Instr) (s : State) (r : Byte) (f : Flags) : Prop :=
  (i.mode = .accumulator → exec i s = .next { retired i s with a := r, flags := f }) ∧ StoresByte i s r f

/-- The stack address that is `k` bytes below SP (R25, R252). -/
def stackSlot (s : State) (k : Nat) : Addr := s.addr (0x0100 + (s.sp - BitVec.ofNat 8 k).toNat)

/-- From `s` to `t` the bytes `bs` were pushed, the first one highest: SP, the stack bytes, every other byte of
memory, the fault of a protected slot, and `running`, which is `r` unless a push faulted (R56, R61, R118). -/
def PushesBytes (s t : State) (bs : List Byte) (r : Bool) : Prop :=
  t.sp = s.sp - BitVec.ofNat 8 bs.length ∧
  (∀ (k : Nat) (hk : k < bs.length), s.cfg.isWritable (stackSlot s k) = true → t.byteAt (stackSlot s k) = bs[k]) ∧
  (∀ a : Addr, (∀ k < bs.length, a = stackSlot s k → s.cfg.isWritable a = false) → t.byteAt a = s.byteAt a) ∧
  ((∀ k < bs.length, s.cfg.isWritable (stackSlot s k) = true) → t.fault = .none ∧ t.running = r) ∧
  ((∃ k < bs.length, s.cfg.isWritable (stackSlot s k) = false) → t.fault = .outOfBoundsWrite ∧ t.running = false)

/-- The byte `k` slots above SP, which the `k`-th pop reads (R62). -/
def poppedByte (s : State) (k : Nat) : Byte := s.byteAt (s.addr (0x0100 + (s.sp + BitVec.ofNat 8 k).toNat))

/-- The address whose low byte is the `k`-th popped byte (R64). -/
def poppedAddress (s : State) (k : Nat) : Nat :=
  match s.cfg.bus with
  | .bits16 => (poppedByte s k).toNat + 256 * (poppedByte s (k + 1)).toNat
  | .bits24 =>
    (poppedByte s k).toNat + 256 * (poppedByte s (k + 1)).toNat + 65536 * (poppedByte s (k + 2)).toNat

/-- The bytes of an address, high byte first (R64). -/
def addressBytes (bus : BusWidth) (v : Nat) : List Byte :=
  match bus with
  | .bits16 => [BitVec.ofNat 8 (v / 256), BitVec.ofNat 8 v]
  | .bits24 => [BitVec.ofNat 8 (v / 65536), BitVec.ofNat 8 (v / 256), BitVec.ofNat 8 v]

/-- The status byte as a sum of its bits (R33). -/
def statusByte (f : Flags) (running : Bool) : Byte :=
  BitVec.ofNat 8 (bitNat f.c + 2 * bitNat f.z + 4 * bitNat f.i + 8 * bitNat f.d + 16 * bitNat f.b +
    32 * bitNat running + 64 * bitNat f.v + 128 * bitNat f.n)

/-- The flags of a status byte, bit by bit (R34). -/
def statusFlags (p : Byte) : Flags where
  c := decide (p.toNat % 2 = 1)
  z := decide (p.toNat / 2 % 2 = 1)
  i := decide (p.toNat / 4 % 2 = 1)
  d := decide (p.toNat / 8 % 2 = 1)
  b := decide (p.toNat / 16 % 2 = 1)
  v := decide (p.toNat / 64 % 2 = 1)
  n := decide (p.toNat / 128 % 2 = 1)

/-- The flag test of a branch, for a branch mnemonic; no other instruction is a taken branch (R230 to R238). -/
def branchTaken (i : Instr) (f : Flags) : Bool :=
  match i.mnemonic with
  | .bcc => !f.c
  | .bcs => f.c
  | .bne => !f.z
  | .beq => f.z
  | .bpl => !f.n
  | .bmi => f.n
  | .bvc => !f.v
  | .bvs => f.v
  | _ => false

/-- A taken branch with displacement byte `r`: PC at the target relative to `PC_next`, one more cycle (R145, R230). -/
def branched (i : Instr) (r : Byte) (s : State) : State :=
  { s with
    pc := s.cfg.bus.addrOfInt ((pcNext i s).toNat + s.cfg.relMode.disp r)
    cycleCount := s.cfg.wrapCycles (s.cycleCount + (i.baseCycles + 1)) }

/-- The whole stack page is writable, as under the default parameters (R57). -/
def StackWritable (s : State) : Prop := ∀ p : Byte, s.cfg.isWritable (s.addr (0x0100 + p.toNat)) = true

/-- The 105 bytes of R98. -/
def unrecognisedBytes : List Byte :=
  [0x02, 0x03, 0x04, 0x07, 0x0B, 0x0C, 0x0F, 0x12, 0x13, 0x14, 0x17, 0x1A, 0x1B, 0x1C, 0x1F, 0x22,
   0x23, 0x27, 0x2B, 0x2F, 0x32, 0x33, 0x34, 0x37, 0x3A, 0x3B, 0x3C, 0x3F, 0x42, 0x43, 0x44, 0x47,
   0x4B, 0x4F, 0x52, 0x53, 0x54, 0x57, 0x5A, 0x5B, 0x5C, 0x5F, 0x62, 0x63, 0x64, 0x67, 0x6B, 0x6F,
   0x72, 0x73, 0x74, 0x77, 0x7A, 0x7B, 0x7C, 0x7F, 0x80, 0x82, 0x83, 0x87, 0x89, 0x8B, 0x8F, 0x92,
   0x93, 0x97, 0x9B, 0x9C, 0x9E, 0x9F, 0xA3, 0xA7, 0xAB, 0xAF, 0xB2, 0xB3, 0xB7, 0xBB, 0xBF, 0xC2,
   0xC3, 0xC7, 0xCB, 0xCF, 0xD2, 0xD3, 0xD4, 0xD7, 0xDA, 0xDB, 0xDC, 0xDF, 0xE2, 0xE3, 0xE7, 0xEB,
   0xEF, 0xF2, 0xF3, 0xF4, 0xF7, 0xFA, 0xFB, 0xFC, 0xFF]

end Sys2Proof.Claims

open Sys2Proof.Claims

/-! ## Encoding -/

/-- Decoding the bytes of a well-formed instruction gives it back, with what follows it (R80 to R89). -/
def Obligations.DecodeOfEncodeIsTheInstruction : Prop :=
  ∀ (bus : BusWidth) (i : Instr) (rest : List Byte), i.wellFormed bus = true →
    decode bus (encode bus i ++ rest) = .ok (i, rest)

/-- Bytes that decode are the bytes of a well-formed instruction, so no two encodings share an instruction (R80 to R89). -/
def Obligations.EncodeOfDecodeIsTheBytes : Prop :=
  ∀ (bus : BusWidth) (bytes rest : List Byte) (i : Instr), decode bus bytes = .ok (i, rest) →
    i.wellFormed bus = true ∧ encode bus i ++ rest = bytes

/-- Words written out from R95 (its byte values are the spec's decision D10) decode to what they stand for. -/
def Obligations.SpelledWordsDecode : Prop :=
  decode .bits16 [0xB1, 0x20] = .ok (.ldaIndY 0x20, []) ∧
  decode .bits16 [0x96, 0xFF] = .ok (.stxZpY 0xFF, []) ∧
  decode .bits16 [0x7D, 0x34, 0x12] = .ok (.adcAbsX 0x1234, []) ∧
  decode .bits16 [0x2C, 0x00, 0x02] = .ok (.bitAbs 0x0200, []) ∧
  decode .bits16 [0x6A] = .ok (.rorAcc, []) ∧
  decode .bits16 [0xDE, 0x01, 0x80] = .ok (.decAbsX 0x8001, []) ∧
  decode .bits16 [0x28] = .ok (.plp, []) ∧
  decode .bits16 [0x70, 0xFE] = .ok (.bvs 0xFE, []) ∧
  decode .bits16 [0x6C, 0xFF, 0x10] = .ok (.jmpInd 0x10FF, []) ∧
  decode .bits24 [0x20, 0x56, 0x34, 0x12] = .ok (.jsr 0x123456, []) ∧
  decode .bits16 [0x00, 0xEA] = .ok (.brk, [0xEA])

/-- A byte has no table entry exactly if it is one of the 105 of R98, whatever follows it (the spec's decision D10). -/
def Obligations.UnrecognisedBytesAreThe105 : Prop :=
  ∀ (bus : BusWidth) (op : Byte) (rest : List Byte),
    decode bus (op :: rest) = .error (.unrecognised op) ↔ op ∈ unrecognisedBytes

/-- The operand bytes of each mode, and the length of every instruction (R82). -/
def Obligations.InstructionLengths : Prop :=
  (∀ bus : BusWidth, ∀ t ∈ [ModeTag.implied, .accumulator], t.nbytes bus = 0) ∧
  (∀ bus : BusWidth, ∀ t ∈ [ModeTag.immediate, .zeroPage, .zeroPageX, .zeroPageY, .indirectX, .indirectY, .relative],
    t.nbytes bus = 1) ∧
  (∀ t ∈ [ModeTag.absolute, .absoluteX, .absoluteY, .indirect], t.nbytes .bits16 = 2 ∧ t.nbytes .bits24 = 3) ∧
  ∀ (bus : BusWidth) (i : Instr), (encode bus i).length = 1 + i.mode.tag.nbytes bus

/-! ## The step -/

/-- A step of a running engine whose bytes at PC decode to `i` is the meaning of `i`, which itself moves PC past
the instruction and counts its cycles (R112). -/
def Obligations.StepRunsTheDecodedInstruction : Prop :=
  ∀ (s : State) (i : Instr) (rest : List Byte), s.running = true →
    decode s.cfg.bus (fetchBytes s) = .ok (i, rest) → step s = exec i s

/-- If the bytes from PC on, each at an address modulo the bus width, are those of a well-formed instruction, the
step of a running engine is its meaning (R83, R112). -/
def Obligations.InstructionBytesAtPcRun : Prop :=
  ∀ (s : State) (i : Instr), s.running = true → i.wellFormed s.cfg.bus = true →
    (∀ (k : Nat) (hk : k < (encode s.cfg.bus i).length),
      s.byteAt (s.addr (s.pc.toNat + k)) = (encode s.cfg.bus i)[k]) →
    step s = exec i s

/-- An unrecognised byte at PC costs one cycle, moves PC by `UNREC_PC_ADVANCE` and nothing else, and the step's event
names the byte and its address (R116; the spec's decisions D13 and D35). -/
def Obligations.UnrecognisedOpcodeStep : Prop :=
  ∀ (s : State), s.running = true → s.byteAt (s.addr s.pc.toNat) ∈ unrecognisedBytes →
    step s = .next { s with
      pc := s.addr (s.pc.toNat + s.cfg.unrecPcAdvance.toNat)
      cycleCount := s.cfg.wrapCycles (s.cycleCount + 1) } ∧
    stepEvent s = some (.unrecognised (s.byteAt (s.addr s.pc.toNat)) s.pc)

/-- A state has no step exactly if it is halted, and it is refused by that name (R110; the spec's decision D25, log 6). -/
def Obligations.HaltedEngineHasNoStep : Prop :=
  ∀ (s : State), step s = .refused .halted ↔ s.running = false

/-- A running engine always has a next state: fetch and reads never fail and nothing traps (R263; the spec's decision D8). -/
def Obligations.RunningEngineAlwaysSteps : Prop :=
  ∀ (s : State), s.running = true → ∃ t, step s = .next t

/-- Every instruction, with every operand, in every state, has a next state (R263, R272; the spec's decisions D8 and D31). -/
def Obligations.EveryInstructionCompletes : Prop :=
  ∀ (i : Instr) (s : State), ∃ t, exec i s = .next t

/-- After any instruction of a running engine without a fault: it is halted exactly if a fault was recorded or it was a
BRK under `BRK_HALTS`, and a fault takes precedence as the reason (R36, R120; the spec's decision D16). -/
def Obligations.HaltCausesAndReasons : Prop :=
  ∀ (i : Instr) (s t : State), s.running = true → s.fault = .none → exec i s = .next t →
    (t.running = false ↔ t.fault = .outOfBoundsWrite ∨ (i = .brk ∧ s.cfg.brkHalts = true)) ∧
    (stepEnd t = .halted .fault ↔ t.fault = .outOfBoundsWrite) ∧
    (stepEnd t = .halted .brk ↔ t.fault = .none ∧ i = .brk ∧ s.cfg.brkHalts = true) ∧
    (stepEnd t = .goesOn ↔ t.running = true)

/-- No instruction sets `running`, none clears `fault`, and one that leaves a fault leaves the engine halted (R36, R37,
R118; the spec's decisions D16 and D34). -/
def Obligations.FaultStaysAndHalts : Prop :=
  ∀ (i : Instr) (s t : State), exec i s = .next t →
    (t.running = true → s.running = true) ∧
    (s.fault = .outOfBoundsWrite → t.fault = .outOfBoundsWrite) ∧
    (t.fault = .outOfBoundsWrite → t.running = false)

/-- The counter grows by the base cost of the opcode, plus 1 for a taken branch, and by nothing else (R97, R117; the
spec's decision D11). -/
def Obligations.CycleAccounting : Prop :=
  ∀ (i : Instr) (s t : State), exec i s = .next t →
    t.cycleCount = s.cfg.wrapCycles (s.cycleCount + i.baseCycles + if branchTaken i s.flags then 1 else 0)

/-! ## Invariants and whole-machine rules -/

/-- Every step keeps the invariant `Inv`: canonical memory inside the address space, PC an address of the bus, a running
engine without a fault, the counter within its width (R27, R38, R50, R119; the list form of memory is the model's, log 4). -/
def Obligations.StepKeepsTheInvariant : Prop :=
  ∀ (s t : State), Inv s → step s = .next t → Inv t

/-- The state after reset meets the invariant (its memory and PC are the model's choice, log 4 and log 5). -/
def Obligations.ResetMeetsTheInvariant : Prop := Inv State.reset

/-- No step changes a parameter (R21; that the state carries them is the model's choice, log 1). -/
def Obligations.StepNeverChangesParameters : Prop :=
  ∀ (s t : State), step s = .next t → t.cfg = s.cfg

/-- Whatever runs, a byte at a non-writable address never changes (R56, R75; the spec's decision D5). -/
def Obligations.ProtectedBytesNeverChange : Prop :=
  ∀ (s t : State), Memory.wf s.mem → step s = .next t →
    ∀ a : Addr, s.cfg.isWritable a = false → t.byteAt a = s.byteAt a

/-- D has no effect on anything but the status byte PHP and BRK push: with D set otherwise, every other instruction
ends in the same state but for D, which CLD, SED, PLP and RTI write as before and the rest leave (R32, R164). -/
def Obligations.DecimalFlagGatesNothing : Prop :=
  ∀ (i : Instr) (s t : State) (d : Bool), i.mnemonic ≠ .php → i.mnemonic ≠ .brk → exec i s = .next t →
    exec i { s with flags := { s.flags with d := d } } =
      .next { t with flags := { t.flags with d := if i.mnemonic ∈ [.cld, .sed, .plp, .rti] then t.flags.d else d } }

/-- I has no effect on anything but the status byte PHP and BRK push (R32, R271; the spec's decision D22). -/
def Obligations.InterruptFlagGatesNothing : Prop :=
  ∀ (i : Instr) (s t : State) (b : Bool), i.mnemonic ≠ .php → i.mnemonic ≠ .brk → exec i s = .next t →
    exec i { s with flags := { s.flags with i := b } } =
      .next { t with flags := { t.flags with i := if i.mnemonic ∈ [.cli, .sei, .plp, .rti] then t.flags.i else b } }

/-- The cycle counter never gates an instruction: with another count everything else ends the same (R38, R117). -/
def Obligations.CycleCountGatesNothing : Prop :=
  ∀ (i : Instr) (s t : State) (n : Nat), exec i s = .next t →
    ∃ m, exec i { s with cycleCount := n } = .next { t with cycleCount := m }

/-- Each flag changes under no instruction but those R32 lists for it. -/
def Obligations.FlagsChangeOnlyUnderTheirWriters : Prop :=
  ∀ (i : Instr) (s t : State), exec i s = .next t →
    (i.mnemonic ∉ [.adc, .sbc, .cmp, .cpx, .cpy, .asl, .lsr, .rol, .ror, .clc, .sec, .plp, .rti] →
      t.flags.c = s.flags.c) ∧
    (i.mnemonic ∉ [.lda, .ldx, .ldy, .adc, .sbc, .and, .ora, .eor, .cmp, .cpx, .cpy, .bit, .asl, .lsr, .rol, .ror, .inc,
        .dec, .inx, .iny, .dex, .dey, .tax, .tay, .txa, .tya, .tsx, .pla, .plp, .rti] →
      t.flags.z = s.flags.z ∧ t.flags.n = s.flags.n) ∧
    (i.mnemonic ∉ [.cli, .sei, .plp, .rti] → t.flags.i = s.flags.i) ∧
    (i.mnemonic ∉ [.cld, .sed, .plp, .rti] → t.flags.d = s.flags.d) ∧
    (i.mnemonic ∉ [.brk, .plp, .rti] → t.flags.b = s.flags.b) ∧
    (i.mnemonic ∉ [.adc, .sbc, .bit, .clv, .plp, .rti] → t.flags.v = s.flags.v)

/-- Each register, and memory, changes under no instruction but those R22 to R25 and R66 list for it. -/
def Obligations.RegistersAndMemoryChangeOnlyUnderTheirWriters : Prop :=
  ∀ (i : Instr) (s t : State), exec i s = .next t →
    (i.mnemonic ∉ [.lda, .adc, .sbc, .and, .ora, .eor, .txa, .tya, .pla] → i.mode ≠ .accumulator → t.a = s.a) ∧
    (i.mnemonic ∉ [.ldx, .inx, .dex, .tax, .tsx] → t.x = s.x) ∧
    (i.mnemonic ∉ [.ldy, .iny, .dey, .tay] → t.y = s.y) ∧
    (i.mnemonic ∉ [.txs, .pha, .php, .pla, .plp, .jsr, .rts, .brk, .rti] → t.sp = s.sp) ∧
    (i.mnemonic ∉ [.sta, .stx, .sty, .asl, .lsr, .rol, .ror, .inc, .dec, .pha, .php, .jsr, .brk] →
      t.mem = s.mem ∧ t.fault = s.fault)

/-- An instruction that is no branch, jump, call, return or BRK leaves PC just past itself, and so does a branch whose
condition fails (R29). -/
def Obligations.OtherInstructionsLeavePcNext : Prop :=
  ∀ (i : Instr) (s t : State), exec i s = .next t → i.mnemonic ∉ [.jmp, .jsr, .rts, .brk, .rti] →
    branchTaken i s.flags = false → t.pc = s.addr (s.pc.toNat + (encode s.cfg.bus i).length)

/-! ## Memory, stack and status byte -/

/-- A write to a writable address is visible on the next read and touches no other byte; a write to another address
changes no byte and records the fault (R55, R56, R57; the spec's decisions D4 and D5). -/
def Obligations.WriteIsSeenByTheNextRead : Prop :=
  ∀ (s : State) (a : Nat) (v : Byte), Memory.wf s.mem →
    (s.cfg.isWritable (s.addr a) = true →
      memRead a (memWrite a v s) = v ∧ (memWrite a v s).fault = s.fault ∧
      ∀ b : Nat, s.addr b ≠ s.addr a → memRead b (memWrite a v s) = memRead b s) ∧
    (s.cfg.isWritable (s.addr a) = false → memWrite a v s = { s with fault := .outOfBoundsWrite })

/-- `ReadAddr` reads the bytes of an address least significant first, each at an address modulo the bus width (R58). -/
def Obligations.ReadAddrIsLittleEndian : Prop :=
  ∀ (s : State) (p : Nat),
    (s.cfg.bus = .bits16 →
      (readAddr p s).toNat = (s.byteAt (s.addr p)).toNat + 256 * (s.byteAt (s.addr (p + 1))).toNat) ∧
    (s.cfg.bus = .bits24 →
      (readAddr p s).toNat = (s.byteAt (s.addr p)).toNat + 256 * (s.byteAt (s.addr (p + 1))).toNat +
        65536 * (s.byteAt (s.addr (p + 2))).toNat)

/-- Up to 256 pushed bytes pop in reverse order, and SP comes back, wrapping as it must (R61 to R63; the spec's
decisions D7 and D8). -/
def Obligations.PushedBytesPopInReverse : Prop :=
  ∀ (s : State) (vs : List Byte), Memory.wf s.mem → StackWritable s → vs.length ≤ 256 →
    (popAll vs.length (pushAll vs s)).1 = vs.reverse ∧ (popAll vs.length (pushAll vs s)).2.sp = s.sp

/-- `setPS(getPS())` leaves all seven flags as they were (R35). -/
def Obligations.StatusByteRoundTrip : Prop :=
  ∀ (s : State), (setPS (getPS s) s).flags = s.flags

/-- The status byte's bits are those of R33, and pulling one reads those of R34 and leaves the rest of the state (the
spec's decision D17). -/
def Obligations.StatusByteLayout : Prop :=
  ∀ (s : State) (p : Byte), getPS s = statusByte s.flags s.running ∧ setPS p s = { s with flags := statusFlags p }

/-! ## Addressing modes -/

/-- The value an instruction reads from its operand: A, the immediate byte, or the byte at the effective address
(R131). Implied has no operand, Accumulator is A and belongs to four shifts alone, Immediate is the operand byte; the
zero-page modes give an address in page 0 and wrap there; Zero Page,Y belongs to LDX and STX alone (R133 to R138). -/
def Obligations.ImmediateAndZeroPageModes : Prop :=
  (∀ s : State, operandValue .acc s = s.a) ∧
  (∀ (s : State) (v : Byte), operandValue (.imm v) s = v) ∧
  (∀ (s : State) (ea : Addr), operandValue (.addr ea) s = s.byteAt (s.addr ea.toNat)) ∧
  (∀ s : State, resolve .implied s = .none) ∧
  (∀ s : State, resolve .accumulator s = .acc) ∧
  (∀ i : Instr, i.mode = .accumulator ↔ i ∈ [Instr.aslAcc, Instr.lsrAcc, Instr.rolAcc, Instr.rorAcc]) ∧
  (∀ (s : State) (v : Byte), resolve (.immediate v) s = .imm v) ∧
  (∀ (s : State) (b : Byte), resolve (.memory (.zeroPage b)) s = .addr (BitVec.ofNat 24 b.toNat)) ∧
  (∀ (s : State) (b : Byte),
    resolve (.memory (.zeroPageX b)) s = .addr (BitVec.ofNat 24 ((b.toNat + s.x.toNat) % 256))) ∧
  (∀ (s : State) (b : Byte),
    resolve (.memory (.zeroPageY b)) s = .addr (BitVec.ofNat 24 ((b.toNat + s.y.toNat) % 256))) ∧
  ∀ i : Instr, i.mode.tag = .zeroPageY → (i.mnemonic = .ldx ∧ i.opcode = 0xB6) ∨ (i.mnemonic = .stx ∧ i.opcode = 0x96)

/-- The absolute and indirect modes: carry into the high byte, wrap at the top of the space alone, pointers without a
page wrap outside page 0 and with one inside it (R139 to R144; the spec's decisions D19, D20 and D21). -/
def Obligations.AbsoluteAndIndirectModes : Prop :=
  ∀ (s : State) (a : Addr) (b : Byte),
    (effectiveAddress (.absolute a) s).toNat = a.toNat % s.cfg.bus.size ∧
    (effectiveAddress (.absoluteX a) s).toNat = (a.toNat + s.x.toNat) % s.cfg.bus.size ∧
    (effectiveAddress (.absoluteY a) s).toNat = (a.toNat + s.y.toNat) % s.cfg.bus.size ∧
    effectiveAddress (.indirect a) s = readAddr a.toNat s ∧
    (s.cfg.bus = .bits16 →
      (effectiveAddress (.indirectX b) s).toNat =
        (memRead ((b.toNat + s.x.toNat) % 256) s).toNat + 256 * (memRead ((b.toNat + s.x.toNat + 1) % 256) s).toNat ∧
      (effectiveAddress (.indirectY b) s).toNat =
        ((memRead b.toNat s).toNat + 256 * (memRead ((b.toNat + 1) % 256) s).toNat + s.y.toNat) % 2 ^ 16) ∧
    (s.cfg.bus = .bits24 →
      (effectiveAddress (.indirectX b) s).toNat =
        (memRead ((b.toNat + s.x.toNat) % 256) s).toNat + 256 * (memRead ((b.toNat + s.x.toNat + 1) % 256) s).toNat +
          65536 * (memRead ((b.toNat + s.x.toNat + 2) % 256) s).toNat ∧
      (effectiveAddress (.indirectY b) s).toNat =
        ((memRead b.toNat s).toNat + 256 * (memRead ((b.toNat + 1) % 256) s).toNat +
          65536 * (memRead ((b.toNat + 2) % 256) s).toNat + s.y.toNat) % 2 ^ 24)

/-- A displacement byte under both readings (R87; the spec's decision D12), and the target it gives: the offset from
`PC_next`, wrapped on the bus (R145). -/
def Obligations.BranchDisplacementAndTarget : Prop :=
  (∀ r : Byte,
    RelMode.twosComplement.disp r = (if r.toNat < 128 then (r.toNat : Int) else (r.toNat : Int) - 256) ∧
    RelMode.signMagnitude.disp r = (if r.toNat < 128 then (r.toNat : Int) else 128 - (r.toNat : Int))) ∧
  ∀ (s : State) (r : Byte),
    (((effectiveAddress (.relative r) s).toNat : Int) - (s.pc.toNat + s.cfg.relMode.disp r)) % s.cfg.bus.size = 0 ∧
    (effectiveAddress (.relative r) s).toNat < s.cfg.bus.size

/-! ## Reset and initialise -/

/-- `reset()` gives every register and control bit the value R41 and R290 state (SP, the flags and the vector address are
the spec's decisions D9 and D18), whatever they were, and leaves memory and parameters; the model's reset state is that
of the default parameters over a memory that lists nothing (log 2, log 4, log 5). -/
def Obligations.ResetSetsEveryRegister : Prop :=
  (∀ s : State, resetEngine s = { s with
      a := 0, x := 0, y := 0, sp := s.cfg.resetSp
      flags := { c := false, z := false, i := false, d := false, b := false, v := false, n := false }
      cycleCount := 0, fault := .none, running := true
      pc := readAddr s.cfg.resetVec s }) ∧
  ∀ s : State, s.cfg = Config.standard → s.mem = Memory.empty → resetEngine s = State.reset

/-- `initialise()` zeroes exactly 0x0200 to `RAM_END` and changes nothing else (R291; the spec's decision D41). -/
def Obligations.InitialiseZeroesRam : Prop :=
  ∀ s : State, initialise s = { s with mem := (initialise s).mem } ∧
    (∀ a : Addr, (initialise s).byteAt a =
      if 0x0200 ≤ a.toNat ∧ a.toNat ≤ s.cfg.ramEnd then 0 else s.byteAt a) ∧
    (Memory.wf s.mem → Memory.wf (initialise s).mem)

/-! ## Loads and stores -/

/-- LDA, LDX, LDY: the forms, the register, Z and N; nothing else but PC and the cycle count (R150 to R153). -/
def Obligations.LoadsWriteRegisterAndZN : Prop :=
  FormsAre .lda
    [(0xA9, .immediate, 2), (0xA5, .zeroPage, 3), (0xB5, .zeroPageX, 4), (0xAD, .absolute, 4), (0xBD, .absoluteX, 4), (0xB9, .absoluteY, 4), (0xA1, .indirectX, 6), (0xB1, .indirectY, 5)] ∧
  FormsAre .ldx
    [(0xA2, .immediate, 2), (0xA6, .zeroPage, 3), (0xB6, .zeroPageY, 4), (0xAE, .absolute, 4), (0xBE, .absoluteY, 4)] ∧
  FormsAre .ldy
    [(0xA0, .immediate, 2), (0xA4, .zeroPage, 3), (0xB4, .zeroPageX, 4), (0xAC, .absolute, 4), (0xBC, .absoluteX, 4)] ∧
  ∀ (i : Instr) (s : State), s.fault = .none →
    let v := operandOf i s
    (i.mnemonic = .lda → exec i s = .next { retired i s with a := v, flags := znOf v s.flags }) ∧
    (i.mnemonic = .ldx → exec i s = .next { retired i s with x := v, flags := znOf v s.flags }) ∧
    (i.mnemonic = .ldy → exec i s = .next { retired i s with y := v, flags := znOf v s.flags })

/-- STA, STX, STY: the forms, the byte stored, every other byte, no flag; and the write fault (R154 to R156). -/
def Obligations.StoresWriteOneByte : Prop :=
  FormsAre .sta
    [(0x85, .zeroPage, 3), (0x95, .zeroPageX, 4), (0x8D, .absolute, 4), (0x9D, .absoluteX, 5), (0x99, .absoluteY, 5), (0x81, .indirectX, 6), (0x91, .indirectY, 6)] ∧
  FormsAre .stx [(0x86, .zeroPage, 3), (0x96, .zeroPageY, 4), (0x8E, .absolute, 4)] ∧
  FormsAre .sty [(0x84, .zeroPage, 3), (0x94, .zeroPageX, 4), (0x8C, .absolute, 4)] ∧
  ∀ (i : Instr) (s : State), s.fault = .none → Memory.wf s.mem →
    (i.mnemonic = .sta → StoresByte i s s.a s.flags) ∧
    (i.mnemonic = .stx → StoresByte i s s.x s.flags) ∧
    (i.mnemonic = .sty → StoresByte i s s.y s.flags)

/-! ## Arithmetic, logic, compare, bit test -/

/-- ADC: the sum modulo 256, carry out of the exact sum, overflow of the signed sum, Z and N, whatever D is (R161). -/
def Obligations.AdcAddsWithCarry : Prop :=
  FormsAre .adc
    [(0x69, .immediate, 2), (0x65, .zeroPage, 3), (0x75, .zeroPageX, 4), (0x6D, .absolute, 4), (0x7D, .absoluteX, 4), (0x79, .absoluteY, 4), (0x61, .indirectX, 6), (0x71, .indirectY, 5)] ∧
  ∀ (i : Instr) (s : State), s.fault = .none → i.mnemonic = .adc →
    let v := operandOf i s
    let sum := s.a.toNat + v.toNat + bitNat s.flags.c
    let signed := s.a.toInt + v.toInt + bitNat s.flags.c
    let r : Byte := BitVec.ofNat 8 sum
    exec i s = .next { retired i s with
      a := r
      flags := znOf r { s.flags with c := decide (255 < sum), v := decide (signed < -128 ∨ 127 < signed) } }

/-- SBC: the difference less the borrow modulo 256, carry as not-borrow, overflow of the signed difference, Z and N (R162). -/
def Obligations.SbcSubtractsWithBorrow : Prop :=
  FormsAre .sbc
    [(0xE9, .immediate, 2), (0xE5, .zeroPage, 3), (0xF5, .zeroPageX, 4), (0xED, .absolute, 4), (0xFD, .absoluteX, 4), (0xF9, .absoluteY, 4), (0xE1, .indirectX, 6), (0xF1, .indirectY, 5)] ∧
  ∀ (i : Instr) (s : State), s.fault = .none → i.mnemonic = .sbc →
    let v := operandOf i s
    let diff : Int := (s.a.toNat : Int) - v.toNat - (1 - bitNat s.flags.c)
    let signed := s.a.toInt - v.toInt - (1 - bitNat s.flags.c)
    let r : Byte := BitVec.ofInt 8 diff
    exec i s = .next { retired i s with
      a := r
      flags := znOf r { s.flags with c := decide (0 ≤ diff), v := decide (signed < -128 ∨ 127 < signed) } }

/-- The overflow predicate says that the signed sum, with either carry in, lies outside -128 to 127 (R160,
whose bitwise formula the spec marks as general knowledge). -/
def Obligations.SignedOverflowIsTheSignedRange : Prop :=
  ∀ (a b : Byte) (c : Bool),
    signedOverflow a b (BitVec.ofNat 8 (a.toNat + b.toNat + bitNat c)) = true ↔
      a.toInt + b.toInt + bitNat c < -128 ∨ 127 < a.toInt + b.toInt + bitNat c

/-- AND, ORA, EOR: A from the bitwise operation, Z and N (R165 to R167). -/
def Obligations.LogicWritesAAndZN : Prop :=
  FormsAre .and
    [(0x29, .immediate, 2), (0x25, .zeroPage, 3), (0x35, .zeroPageX, 4), (0x2D, .absolute, 4), (0x3D, .absoluteX, 4), (0x39, .absoluteY, 4), (0x21, .indirectX, 6), (0x31, .indirectY, 5)] ∧
  FormsAre .ora
    [(0x09, .immediate, 2), (0x05, .zeroPage, 3), (0x15, .zeroPageX, 4), (0x0D, .absolute, 4), (0x1D, .absoluteX, 4), (0x19, .absoluteY, 4), (0x01, .indirectX, 6), (0x11, .indirectY, 5)] ∧
  FormsAre .eor
    [(0x49, .immediate, 2), (0x45, .zeroPage, 3), (0x55, .zeroPageX, 4), (0x4D, .absolute, 4), (0x5D, .absoluteX, 4), (0x59, .absoluteY, 4), (0x41, .indirectX, 6), (0x51, .indirectY, 5)] ∧
  ∀ (i : Instr) (s : State), s.fault = .none →
    let v := operandOf i s
    (i.mnemonic = .and → exec i s = .next { retired i s with a := s.a &&& v, flags := znOf (s.a &&& v) s.flags }) ∧
    (i.mnemonic = .ora → exec i s = .next { retired i s with a := s.a ||| v, flags := znOf (s.a ||| v) s.flags }) ∧
    (i.mnemonic = .eor → exec i s = .next { retired i s with a := s.a ^^^ v, flags := znOf (s.a ^^^ v) s.flags })

/-- CMP, CPX, CPY: C by unsigned order, Z by equality, N of the difference; no register, no V (R168 to R171). -/
def Obligations.ComparesWriteCZN : Prop :=
  FormsAre .cmp
    [(0xC9, .immediate, 2), (0xC5, .zeroPage, 3), (0xD5, .zeroPageX, 4), (0xCD, .absolute, 4), (0xDD, .absoluteX, 4), (0xD9, .absoluteY, 4), (0xC1, .indirectX, 6), (0xD1, .indirectY, 5)] ∧
  FormsAre .cpx [(0xE0, .immediate, 2), (0xE4, .zeroPage, 3), (0xEC, .absolute, 4)] ∧
  FormsAre .cpy [(0xC0, .immediate, 2), (0xC4, .zeroPage, 3), (0xCC, .absolute, 4)] ∧
  ∀ (i : Instr) (s : State), s.fault = .none →
    let v := operandOf i s
    let f := fun reg : Byte => { s.flags with
      c := decide (v.toNat ≤ reg.toNat)
      z := decide (reg = v)
      n := decide (128 ≤ (reg.toNat + 256 - v.toNat) % 256) }
    (i.mnemonic = .cmp → exec i s = .next { retired i s with flags := f s.a }) ∧
    (i.mnemonic = .cpx → exec i s = .next { retired i s with flags := f s.x }) ∧
    (i.mnemonic = .cpy → exec i s = .next { retired i s with flags := f s.y })

/-- BIT: Z from A and the operand, N and V from the operand's bits 7 and 6 (R172). -/
def Obligations.BitTestsTheOperand : Prop :=
  FormsAre .bit [(0x24, .zeroPage, 3), (0x2C, .absolute, 4)] ∧
  ∀ (i : Instr) (s : State), s.fault = .none → i.mnemonic = .bit →
    let v := operandOf i s
    exec i s = .next { retired i s with flags := { s.flags with
      z := decide (s.a &&& v = 0)
      n := decide (v.toNat / 128 % 2 = 1)
      v := decide (v.toNat / 64 % 2 = 1) } }

/-! ## Shifts, increments -/

/-- ASL, LSR, ROL, ROR: the result written back to A or to memory, C from the bit shifted out, Z and N; the flags change
even if the write is suppressed (R181 to R184; that last clause is the spec's decision D6, R180). -/
def Obligations.ShiftsWriteBack : Prop :=
  FormsAre .asl
    [(0x0A, .accumulator, 2), (0x06, .zeroPage, 5), (0x16, .zeroPageX, 6), (0x0E, .absolute, 6), (0x1E, .absoluteX, 7)] ∧
  FormsAre .lsr
    [(0x4A, .accumulator, 2), (0x46, .zeroPage, 5), (0x56, .zeroPageX, 6), (0x4E, .absolute, 6), (0x5E, .absoluteX, 7)] ∧
  FormsAre .rol
    [(0x2A, .accumulator, 2), (0x26, .zeroPage, 5), (0x36, .zeroPageX, 6), (0x2E, .absolute, 6), (0x3E, .absoluteX, 7)] ∧
  FormsAre .ror
    [(0x6A, .accumulator, 2), (0x66, .zeroPage, 5), (0x76, .zeroPageX, 6), (0x6E, .absolute, 6), (0x7E, .absoluteX, 7)] ∧
  ∀ (i : Instr) (s : State), s.fault = .none → Memory.wf s.mem →
    let v := (operandOf i s).toNat
    let c := bitNat s.flags.c
    let shifted := fun (r : Nat) (out : Bool) =>
      WritesBack i s (BitVec.ofNat 8 r) (znOf (BitVec.ofNat 8 r) { s.flags with c := out })
    (i.mnemonic = .asl → shifted (2 * v) (decide (128 ≤ v))) ∧
    (i.mnemonic = .lsr → shifted (v / 2) (decide (v % 2 = 1))) ∧
    (i.mnemonic = .rol → shifted (2 * v + c) (decide (128 ≤ v))) ∧
    (i.mnemonic = .ror → shifted (v / 2 + 128 * c) (decide (v % 2 = 1)))

/-- INC, DEC: the byte in memory plus or minus 1 modulo 256, Z and N, the flags even if the write is
suppressed (R185, R186; that last clause is the spec's decision D6, R180). -/
def Obligations.MemoryIncrementsWriteBack : Prop :=
  FormsAre .inc [(0xE6, .zeroPage, 5), (0xF6, .zeroPageX, 6), (0xEE, .absolute, 6), (0xFE, .absoluteX, 7)] ∧
  FormsAre .dec [(0xC6, .zeroPage, 5), (0xD6, .zeroPageX, 6), (0xCE, .absolute, 6), (0xDE, .absoluteX, 7)] ∧
  ∀ (i : Instr) (s : State), s.fault = .none → Memory.wf s.mem →
    let v := (operandOf i s).toNat
    let up : Byte := BitVec.ofNat 8 (v + 1)
    let down : Byte := BitVec.ofNat 8 (v + 255)
    (i.mnemonic = .inc → StoresByte i s up (znOf up s.flags)) ∧
    (i.mnemonic = .dec → StoresByte i s down (znOf down s.flags))

/-- INX, INY, DEX, DEY: the register plus or minus 1 modulo 256, Z and N (R187 to R190). -/
def Obligations.IndexIncrements : Prop :=
  FormsAre .inx [(0xE8, .implied, 2)] ∧
  FormsAre .iny [(0xC8, .implied, 2)] ∧
  FormsAre .dex [(0xCA, .implied, 2)] ∧
  FormsAre .dey [(0x88, .implied, 2)] ∧
  ∀ (s : State), s.fault = .none →
    let up := fun v : Byte => (BitVec.ofNat 8 (v.toNat + 1) : Byte)
    let down := fun v : Byte => (BitVec.ofNat 8 (v.toNat + 255) : Byte)
    exec .inx s = .next { retired .inx s with x := up s.x, flags := znOf (up s.x) s.flags } ∧
    exec .iny s = .next { retired .iny s with y := up s.y, flags := znOf (up s.y) s.flags } ∧
    exec .dex s = .next { retired .dex s with x := down s.x, flags := znOf (down s.x) s.flags } ∧
    exec .dey s = .next { retired .dey s with y := down s.y, flags := znOf (down s.y) s.flags }

/-! ## Transfers, flags, stack, NOP -/

/-- TSX copies SP to X with Z and N; TXS copies X to SP and writes no flag (R204, R205). -/
def Obligations.StackPointerTransfers : Prop :=
  FormsAre .tsx [(0xBA, .implied, 2)] ∧
  FormsAre .txs [(0x9A, .implied, 2)] ∧
  ∀ (s : State), s.fault = .none →
    exec .tsx s = .next { retired .tsx s with x := s.sp, flags := znOf s.sp s.flags } ∧
    exec .txs s = .next { retired .txs s with sp := s.x }

/-- TAX, TAY, TXA, TYA: the copy (R200 to R203), and Z and N, which are the spec's decision D29. -/
def Obligations.RegisterTransfers : Prop :=
  FormsAre .tax [(0xAA, .implied, 2)] ∧
  FormsAre .tay [(0xA8, .implied, 2)] ∧
  FormsAre .txa [(0x8A, .implied, 2)] ∧
  FormsAre .tya [(0x98, .implied, 2)] ∧
  ∀ (s : State), s.fault = .none →
    exec .tax s = .next { retired .tax s with x := s.a, flags := znOf s.a s.flags } ∧
    exec .tay s = .next { retired .tay s with y := s.a, flags := znOf s.a s.flags } ∧
    exec .txa s = .next { retired .txa s with a := s.x, flags := znOf s.x s.flags } ∧
    exec .tya s = .next { retired .tya s with a := s.y, flags := znOf s.y s.flags }

/-- CLC, SEC, CLD, SED, CLV: the named flag and nothing else (R206, R207, R210, R211, R212). -/
def Obligations.FlagInstructions : Prop :=
  FormsAre .clc [(0x18, .implied, 2)] ∧
  FormsAre .sec [(0x38, .implied, 2)] ∧
  FormsAre .cld [(0xD8, .implied, 2)] ∧
  FormsAre .sed [(0xF8, .implied, 2)] ∧
  FormsAre .clv [(0xB8, .implied, 2)] ∧
  ∀ (s : State), s.fault = .none →
    exec .clc s = .next { retired .clc s with flags := { s.flags with c := false } } ∧
    exec .sec s = .next { retired .sec s with flags := { s.flags with c := true } } ∧
    exec .cld s = .next { retired .cld s with flags := { s.flags with d := false } } ∧
    exec .sed s = .next { retired .sed s with flags := { s.flags with d := true } } ∧
    exec .clv s = .next { retired .clv s with flags := { s.flags with v := false } }

/-- CLI and SEI write I and nothing else (R208, R209; that I gates nothing is the spec's decision D22). -/
def Obligations.InterruptFlagInstructions : Prop :=
  FormsAre .cli [(0x58, .implied, 2)] ∧
  FormsAre .sei [(0x78, .implied, 2)] ∧
  ∀ (s : State), s.fault = .none →
    exec .cli s = .next { retired .cli s with flags := { s.flags with i := false } } ∧
    exec .sei s = .next { retired .sei s with flags := { s.flags with i := true } }

/-- PHA pushes A; PHP pushes the status byte as it is, bit 5 being `running`; no flag (R213, R215, R61; the spec's
decisions D7, D10, D17 and D30). After a suppressed push SP still moves and the engine halts (R118; the spec's decision
D6, log 12). -/
def Obligations.PushInstructions : Prop :=
  FormsAre .pha [(0x48, .implied, 3)] ∧
  FormsAre .php [(0x08, .implied, 3)] ∧
  ∀ (s : State), s.fault = .none → Memory.wf s.mem →
    (∃ t, exec .pha s = .next t ∧
      t = { retired .pha s with sp := t.sp, mem := t.mem, fault := t.fault, running := t.running } ∧
      PushesBytes s t [s.a] s.running) ∧
    ∃ t, exec .php s = .next t ∧
      t = { retired .php s with sp := t.sp, mem := t.mem, fault := t.fault, running := t.running } ∧
      PushesBytes s t [statusByte s.flags s.running] s.running

/-- PLA pulls A with Z and N; PLP pulls the seven flags and leaves `running` (R214, R216; the spec's decisions D10, D17
and D30). -/
def Obligations.PullInstructions : Prop :=
  FormsAre .pla [(0x68, .implied, 4)] ∧
  FormsAre .plp [(0x28, .implied, 4)] ∧
  ∀ (s : State), s.fault = .none →
    exec .pla s = .next { retired .pla s with
      sp := s.sp + 1, a := poppedByte s 1, flags := znOf (poppedByte s 1) s.flags } ∧
    exec .plp s = .next { retired .plp s with sp := s.sp + 1, flags := statusFlags (poppedByte s 1) }

/-- NOP does nothing but pass (R217). -/
def Obligations.NopOnlyPasses : Prop :=
  FormsAre .nop [(0xEA, .implied, 2)] ∧ ∀ (s : State), s.fault = .none → exec .nop s = .next (retired .nop s)

/-! ## Branches, jumps, subroutines, break -/

/-- The eight branches: to the target with one more cycle if the flag has the tested value, else just past it; no flag
(R230 to R238). -/
def Obligations.BranchesTestOneFlag : Prop :=
  FormsAre .bcc [(0x90, .relative, 2)] ∧
  FormsAre .bcs [(0xB0, .relative, 2)] ∧
  FormsAre .beq [(0xF0, .relative, 2)] ∧
  FormsAre .bne [(0xD0, .relative, 2)] ∧
  FormsAre .bmi [(0x30, .relative, 2)] ∧
  FormsAre .bpl [(0x10, .relative, 2)] ∧
  FormsAre .bvc [(0x50, .relative, 2)] ∧
  FormsAre .bvs [(0x70, .relative, 2)] ∧
  ∀ (s : State) (r : Byte), s.fault = .none →
    exec (.bcc r) s = .next (if s.flags.c = false then branched (.bcc r) r s else retired (.bcc r) s) ∧
    exec (.bcs r) s = .next (if s.flags.c = true then branched (.bcs r) r s else retired (.bcs r) s) ∧
    exec (.beq r) s = .next (if s.flags.z = true then branched (.beq r) r s else retired (.beq r) s) ∧
    exec (.bne r) s = .next (if s.flags.z = false then branched (.bne r) r s else retired (.bne r) s) ∧
    exec (.bmi r) s = .next (if s.flags.n = true then branched (.bmi r) r s else retired (.bmi r) s) ∧
    exec (.bpl r) s = .next (if s.flags.n = false then branched (.bpl r) r s else retired (.bpl r) s) ∧
    exec (.bvc r) s = .next (if s.flags.v = false then branched (.bvc r) r s else retired (.bvc r) s) ∧
    exec (.bvs r) s = .next (if s.flags.v = true then branched (.bvs r) r s else retired (.bvs r) s)

/-- JMP: PC at the operand address, or at the address its pointer holds; nothing else (R240; that a pointer
does not wrap within a page is the spec's decision D19). -/
def Obligations.JmpSetsPc : Prop :=
  FormsAre .jmp [(0x4C, .absolute, 3), (0x6C, .indirect, 5)] ∧
  ∀ (s : State) (a : Addr), s.fault = .none →
    exec (.jmpAbs a) s = .next { retired (.jmpAbs a) s with pc := s.addr a.toNat } ∧
    exec (.jmpInd a) s = .next { retired (.jmpInd a) s with pc := readAddr a.toNat s }

/-- JSR pushes the address of its last operand byte, high byte first, and goes to its operand (R241, R64; the spec's
decisions D7 and D40). If a push is suppressed SP still moves, the jump is taken, and the engine halts (R118; the spec's
decision D6, log 12). -/
def Obligations.JsrPushesAndJumps : Prop :=
  FormsAre .jsr [(0x20, .absolute, 6)] ∧
  ∀ (s : State) (a : Addr), s.fault = .none → Memory.wf s.mem →
    ∃ t, exec (.jsr a) s = .next t ∧
      t = { retired (.jsr a) s with
        pc := s.addr a.toNat, sp := t.sp, mem := t.mem, fault := t.fault, running := t.running } ∧
      PushesBytes s t
        (addressBytes s.cfg.bus (((pcNext (.jsr a) s).toNat + s.cfg.bus.size - 1) % s.cfg.bus.size)) s.running

/-- RTS: PC one past the popped address, SP up by the bytes of an address, nothing else (R242; the stack's order is
the spec's decision D7). -/
def Obligations.RtsReturns : Prop :=
  FormsAre .rts [(0x60, .implied, 6)] ∧
  ∀ (s : State), s.fault = .none →
    exec .rts s = .next { retired .rts s with
      pc := s.addr (poppedAddress s 1 + 1), sp := s.sp + BitVec.ofNat 8 s.cfg.bus.bytes }

/-- BRK pushes its return address and the status byte taken before B is set, sets B, loads PC from the break vector, and
halts the engine under `BRK_HALTS`; I and the other flags stay (R250, R265; the spec's decisions D7, D9, D14, D15, D16).
If a push is suppressed SP, B and PC still change, and the engine halts whatever `BRK_HALTS` is (R118, R264; the spec's
decisions D6 and D38, log 12). -/
def Obligations.BrkTakesTheBreak : Prop :=
  FormsAre .brk [(0x00, .implied, 7)] ∧
  ∀ (s : State), s.fault = .none → Memory.wf s.mem →
    ∃ t, exec .brk s = .next t ∧
      t = { retired .brk s with
        pc := readAddr s.cfg.brkVec t, flags := { s.flags with b := true }
        sp := t.sp, mem := t.mem, fault := t.fault, running := t.running } ∧
      PushesBytes s t
        (addressBytes s.cfg.bus ((s.pc.toNat + s.cfg.brkPcOffset.toNat) % s.cfg.bus.size) ++
          [statusByte s.flags s.running])
        (s.running && !s.cfg.brkHalts)

/-- RTI: the seven flags from the first popped byte, PC the next popped address with nothing added, `running` as it was
(R251, R266; the spec's decision D17). -/
def Obligations.RtiReturns : Prop :=
  FormsAre .rti [(0x40, .implied, 6)] ∧
  ∀ (s : State), s.fault = .none →
    exec .rti s = .next { retired .rti s with
      pc := s.addr (poppedAddress s 2), flags := statusFlags (poppedByte s 1)
      sp := s.sp + BitVec.ofNat 8 (s.cfg.bus.bytes + 1) }

/-- A subroutine that returns at once comes back just past the JSR with SP, the flags and `running` as they were (R241,
R242; the spec's decision D40). -/
def Obligations.JsrThenRtsComesBack : Prop :=
  ∀ (s : State) (a : Addr), s.fault = .none → Memory.wf s.mem → StackWritable s →
    ∃ t u, exec (.jsr a) s = .next t ∧ exec .rts t = .next u ∧ u.pc = pcNext (.jsr a) s ∧ u.sp = s.sp ∧
      u.fault = .none ∧ u.running = s.running ∧ u.flags = s.flags

/-- RTI after a BRK restores all seven flags, B and I among them, and goes to `PC_op + BRK_PC_OFFSET`; `running` stays
as BRK left it (R251, R265, R266; the spec's decisions D14, D15 and D17). -/
def Obligations.BrkThenRtiComesBack : Prop :=
  ∀ (s : State), s.fault = .none → Memory.wf s.mem → StackWritable s →
    ∃ t u, exec .brk s = .next t ∧ exec .rti t = .next u ∧ u.flags = s.flags ∧ u.sp = s.sp ∧
      u.pc = s.addr (s.pc.toNat + s.cfg.brkPcOffset.toNat) ∧ u.fault = .none ∧
      u.running = (s.running && !s.cfg.brkHalts)
end

