-- ==== Sys2Proof/Laws/Bits.lean ====
section
/-! SUPPORT. Address arithmetic and byte order. -/

namespace Sys2Proof

theorem BusWidth.size_pos (bus : BusWidth) : 0 < bus.size := by cases bus <;> decide

theorem BusWidth.size_le (bus : BusWidth) : bus.size ≤ 2 ^ 24 := by cases bus <;> decide

theorem BusWidth.size_eq (bus : BusWidth) : bus.size = 256 ^ bus.bytes := by cases bus <;> rfl

/-- `addr` reduces modulo the address space. -/
@[simp] theorem BusWidth.addr_toNat (bus : BusWidth) (v : Nat) : (bus.addr v).toNat = v % bus.size := by
  have h := Nat.mod_lt v bus.size_pos
  have := bus.size_le
  rw [BusWidth.addr, BitVec.toNat_ofNat, Nat.mod_eq_of_lt (by omega)]

theorem BusWidth.addr_lt (bus : BusWidth) (v : Nat) : (bus.addr v).toNat < bus.size := by
  rw [bus.addr_toNat]; exact Nat.mod_lt _ bus.size_pos

/-- An address of the bus is its own reduction. -/
theorem BusWidth.addr_of_lt (bus : BusWidth) (a : Addr) (h : a.toNat < bus.size) : bus.addr a.toNat = a :=
  BitVec.eq_of_toNat_eq (by rw [bus.addr_toNat, Nat.mod_eq_of_lt h])

theorem BusWidth.addr_eq_addr (bus : BusWidth) (v w : Nat) :
    bus.addr v = bus.addr w ↔ v % bus.size = w % bus.size :=
  ⟨fun h => by simpa using congrArg BitVec.toNat h, fun h => BitVec.eq_of_toNat_eq (by simpa using h)⟩

@[simp] theorem BusWidth.addr_addr (bus : BusWidth) (v : Nat) : bus.addr (bus.addr v).toNat = bus.addr v :=
  bus.addr_of_lt _ (bus.addr_lt v)

theorem BusWidth.addrOfInt_lt (bus : BusWidth) (v : Int) : (bus.addrOfInt v).toNat < bus.size := bus.addr_lt _

@[simp] theorem leBytes_length (n v : Nat) : (leBytes n v).length = n := by
  induction n generalizing v with
  | zero => rfl
  | succ n ih => simp [leBytes, ih]

theorem leNat_lt (bs : List Byte) : leNat bs < 256 ^ bs.length := by
  induction bs with
  | nil => simp [leNat]
  | cons b bs ih =>
    have hb := b.isLt
    simp only [leNat, List.length_cons, pow_succ]
    omega

/-- Reading the `n` bytes of a number gives it modulo `256^n`. -/
@[simp] theorem leNat_leBytes (n v : Nat) : leNat (leBytes n v) = v % 256 ^ n := by
  induction n generalizing v with
  | zero => simp [leBytes, leNat, Nat.mod_one]
  | succ n ih =>
    have h8 : (BitVec.ofNat 8 v).toNat = v % 256 := BitVec.toNat_ofNat v 8
    rw [leBytes, leNat, ih, h8, Nat.pow_succ, Nat.mul_comm (256 ^ n) 256, Nat.mod_mul]

/-- The bytes of the number a list writes are the list. -/
@[simp] theorem leBytes_leNat (bs : List Byte) : leBytes bs.length (leNat bs) = bs := by
  induction bs with
  | nil => rfl
  | cons b bs ih =>
    have hb := b.isLt
    have h1 : (b.toNat + 256 * leNat bs) / 256 = leNat bs := by omega
    have h2 : BitVec.ofNat 8 (b.toNat + 256 * leNat bs) = b := by
      apply BitVec.eq_of_toNat_eq; simp only [BitVec.toNat_ofNat]; omega
    simp only [List.length_cons, leBytes, leNat, h1, h2, ih]

theorem bitNat_le (b : Bool) : bitNat b ≤ 1 := by cases b <;> decide

/-- The counter's width is kept by reduction. -/
@[simp] theorem Config.wrapCycles_wrapCycles (c : Config) (n : Nat) :
    c.wrapCycles (c.wrapCycles n) = c.wrapCycles n := by
  unfold Config.wrapCycles
  cases c.cycleBits <;> simp

end Sys2Proof
end

