-- ==== Sys2Proof/Laws/Memory.lean ====
section
/-! SUPPORT. Memory: read after write, and every operation keeps the canonical form and the address space. -/

namespace Sys2Proof.Machine

@[simp] theorem Memory.read_nil (a : Nat) : Memory.read [] a = Memory.unlisted := rfl

theorem Memory.read_cons (k : Nat) (w : Byte) (m : Memory) (a : Nat) :
    Memory.read ((k, w) :: m) a = if k = a then w else Memory.read m a := rfl

/-- An address no entry lists reads as unlisted. -/
theorem Memory.read_of_not_listed (m : Memory) (a : Nat) (h : ∀ c ∈ m, c.1 ≠ a) :
    Memory.read m a = Memory.unlisted := by
  induction m with
  | nil => rfl
  | cons c m ih =>
    rw [Memory.read, if_neg (h c (by simp)), ih fun d hd => h d (by simp [hd])]

theorem Memory.wf_tail {c : Host.Cell} {m : Memory} (h : Memory.wf (c :: m)) : Memory.wf m :=
  ⟨h.1.of_cons, fun d hd => h.2 d (by simp [hd])⟩

/-- Addresses below the first entry are not listed. -/
theorem Memory.read_below {c : Host.Cell} {m : Memory} {a : Nat} (h : Memory.wf (c :: m)) (ha : a ≤ c.1) :
    Memory.read m a = Memory.unlisted :=
  Memory.read_of_not_listed m a fun d hd => by
    have := (List.pairwise_cons.1 h.1).1 d hd
    omega

/-- A write lands on its own address and leaves every other alone. -/
theorem Memory.read_write (m : Memory) (a b : Nat) (v : Byte) (h : Memory.wf m) :
    Memory.read (Memory.write m a v) b = if b = a then v else Memory.read m b := by
  induction m with
  | nil =>
    by_cases hv : v = Memory.unlisted <;> by_cases hb : b = a <;>
      simp_all [Memory.write, Memory.read, eq_comm]
  | cons c m ih =>
    obtain ⟨k, w⟩ := c
    have hb := Memory.read_below (a := a) h
    have ih := ih (Memory.wf_tail h)
    simp only [Memory.write]
    split
    · split
      · by_cases hba : b = a
        · subst hba; simp [Memory.read, hb (by simp; omega), *]; omega
        · simp [hba]
      · simp only [Memory.read_cons]; grind
    · split
      · subst_vars
        split
        · by_cases hba : b = k
          · subst hba; simp [hb (le_refl _), *]
          · simp [Memory.read_cons, hba, Ne.symm hba]
        · simp only [Memory.read_cons]; grind
      · simp only [Memory.read_cons, ih]; grind

theorem Memory.write_mem {m : Memory} {a : Nat} {v : Byte} {c : Host.Cell} (h : c ∈ Memory.write m a v) :
    (c = (a, v) ∧ v ≠ Memory.unlisted) ∨ c ∈ m := by
  induction m with
  | nil => simp only [Memory.write] at h; split at h <;> simp_all
  | cons d m ih =>
    obtain ⟨k, w⟩ := d
    simp only [Memory.write] at h
    grind

/-- A write keeps the canonical form. -/
theorem Memory.wf_write (m : Memory) (a : Nat) (v : Byte) (h : Memory.wf m) : Memory.wf (Memory.write m a v) := by
  induction m with
  | nil => by_cases hv : v = Memory.unlisted <;> simp [Memory.write, Memory.wf, hv]
  | cons d m ih =>
    obtain ⟨k, w⟩ := d
    have ht := ih (Memory.wf_tail h)
    obtain ⟨h1, h2⟩ := h
    obtain ⟨hk, h1⟩ := List.pairwise_cons.1 h1
    simp only [Memory.write]
    split
    · split
      · exact ⟨List.pairwise_cons.2 ⟨hk, h1⟩, h2⟩
      · refine ⟨List.pairwise_cons.2 ⟨?_, List.pairwise_cons.2 ⟨hk, h1⟩⟩, ?_⟩
        · intro d hd
          rcases List.mem_cons.1 hd with rfl | hd
          · assumption
          · have := hk d hd; simp at this ⊢; omega
        · intro d hd
          rcases List.mem_cons.1 hd with rfl | hd
          · assumption
          · exact h2 d hd
    · split
      · subst_vars
        split
        · exact ⟨h1, fun d hd => h2 d (by simp [hd])⟩
        · refine ⟨List.pairwise_cons.2 ⟨hk, h1⟩, ?_⟩
          intro d hd
          rcases List.mem_cons.1 hd with rfl | hd
          · assumption
          · exact h2 d (by simp [hd])
      · refine ⟨List.pairwise_cons.2 ⟨?_, ht.1⟩, ?_⟩
        · intro d hd
          rcases Memory.write_mem hd with ⟨rfl, -⟩ | hd
          · simp; omega
          · exact hk d hd
        · intro d hd
          rcases List.mem_cons.1 hd with rfl | hd
          · exact h2 _ (by simp)
          · exact ht.2 d hd

/-- A write at an address of the bus keeps memory inside the address space. -/
theorem Memory.inSpace_write (bus : BusWidth) (m : Memory) (a : Nat) (v : Byte) (h : Memory.inSpace bus m)
    (ha : a < bus.size) : Memory.inSpace bus (Memory.write m a v) := by
  intro c hc
  rcases Memory.write_mem hc with ⟨rfl, -⟩ | hc
  · exact ha
  · exact h c hc

theorem Memory.wf_empty : Memory.wf Memory.empty := by simp [Memory.empty, Memory.wf]

/-- Zeroing a range keeps the canonical form. -/
theorem Memory.wf_zeroRange (lo hi : Nat) (m : Memory) (h : Memory.wf m) : Memory.wf (Memory.zeroRange lo hi m) :=
  ⟨h.1.filter _, fun c hc => h.2 c (List.mem_filter.1 hc).1⟩

theorem Memory.inSpace_zeroRange (bus : BusWidth) (lo hi : Nat) (m : Memory) (h : Memory.inSpace bus m) :
    Memory.inSpace bus (Memory.zeroRange lo hi m) :=
  fun c hc => h c (List.mem_filter.1 hc).1

/-- A zeroed range reads as 0x00, and every other address as before. -/
theorem Memory.read_zeroRange (lo hi : Nat) (m : Memory) (a : Nat) :
    Memory.read (Memory.zeroRange lo hi m) a = if lo ≤ a ∧ a ≤ hi then 0 else Memory.read m a := by
  induction m with
  | nil => simp [Memory.zeroRange, Memory.unlisted]
  | cons d m ih =>
    obtain ⟨k, w⟩ := d
    unfold Memory.zeroRange at ih ⊢
    rw [List.filter_cons]
    split <;> simp_all only [Memory.read_cons] <;> grind

/-- Two canonical memories that read alike are the same list. -/
theorem Memory.ext_of_read {m m' : Memory} (h : Memory.wf m) (h' : Memory.wf m')
    (hr : ∀ a, Memory.read m a = Memory.read m' a) : m = m' := by
  induction m generalizing m' with
  | nil =>
    cases m' with
    | nil => rfl
    | cons c m' =>
      obtain ⟨k, w⟩ := c
      have := hr k
      simp [Memory.read_cons] at this
      exact absurd this.symm (h'.2 (k, w) (by simp))
  | cons c m ih =>
    obtain ⟨k, w⟩ := c
    have hw := h.2 (k, w) (by simp)
    cases m' with
    | nil =>
      have := hr k
      simp [Memory.read_cons] at this
      exact absurd this hw
    | cons c' m' =>
      obtain ⟨k', w'⟩ := c'
      have hw' := h'.2 (k', w') (by simp)
      have hk : k = k' := by
        by_contra hne
        rcases Nat.lt_or_gt_of_ne hne with hlt | hlt
        · have := hr k
          rw [Memory.read_cons, if_pos rfl, Memory.read_cons, if_neg (by omega),
            Memory.read_below h' (by simp; omega)] at this
          exact hw this
        · have := hr k'
          rw [Memory.read_cons, if_neg (by omega), Memory.read_cons, if_pos rfl,
            Memory.read_below h (by simp; omega)] at this
          exact hw' this.symm
      subst hk
      have hww : w = w' := by simpa [Memory.read_cons] using hr k
      subst hww
      congr 1
      refine ih (Memory.wf_tail h) (Memory.wf_tail h') fun a => ?_
      by_cases ha : k = a
      · subst ha
        rw [Memory.read_below h (le_refl _), Memory.read_below h' (le_refl _)]
      · simpa [Memory.read_cons, ha] using hr a

end Sys2Proof.Machine
end

