-- ==== Sys2Proof/Laws/State.lean ====
section
/-! SUPPORT. One lemma per field per update of the state. -/

namespace Sys2Proof.Machine

variable (s : State)

@[simp] theorem State.setA_a (v : Byte) : (s.setA v).a = v := rfl
@[simp] theorem State.setA_x (v : Byte) : (s.setA v).x = s.x := rfl
@[simp] theorem State.setA_y (v : Byte) : (s.setA v).y = s.y := rfl
@[simp] theorem State.setA_sp (v : Byte) : (s.setA v).sp = s.sp := rfl
@[simp] theorem State.setA_pc (v : Byte) : (s.setA v).pc = s.pc := rfl
@[simp] theorem State.setA_flags (v : Byte) : (s.setA v).flags = s.flags := rfl
@[simp] theorem State.setA_running (v : Byte) : (s.setA v).running = s.running := rfl
@[simp] theorem State.setA_fault (v : Byte) : (s.setA v).fault = s.fault := rfl
@[simp] theorem State.setA_cycleCount (v : Byte) : (s.setA v).cycleCount = s.cycleCount := rfl
@[simp] theorem State.setA_mem (v : Byte) : (s.setA v).mem = s.mem := rfl
@[simp] theorem State.setA_cfg (v : Byte) : (s.setA v).cfg = s.cfg := rfl

@[simp] theorem State.setX_a (v : Byte) : (s.setX v).a = s.a := rfl
@[simp] theorem State.setX_x (v : Byte) : (s.setX v).x = v := rfl
@[simp] theorem State.setX_y (v : Byte) : (s.setX v).y = s.y := rfl
@[simp] theorem State.setX_sp (v : Byte) : (s.setX v).sp = s.sp := rfl
@[simp] theorem State.setX_pc (v : Byte) : (s.setX v).pc = s.pc := rfl
@[simp] theorem State.setX_flags (v : Byte) : (s.setX v).flags = s.flags := rfl
@[simp] theorem State.setX_running (v : Byte) : (s.setX v).running = s.running := rfl
@[simp] theorem State.setX_fault (v : Byte) : (s.setX v).fault = s.fault := rfl
@[simp] theorem State.setX_cycleCount (v : Byte) : (s.setX v).cycleCount = s.cycleCount := rfl
@[simp] theorem State.setX_mem (v : Byte) : (s.setX v).mem = s.mem := rfl
@[simp] theorem State.setX_cfg (v : Byte) : (s.setX v).cfg = s.cfg := rfl

@[simp] theorem State.setY_a (v : Byte) : (s.setY v).a = s.a := rfl
@[simp] theorem State.setY_x (v : Byte) : (s.setY v).x = s.x := rfl
@[simp] theorem State.setY_y (v : Byte) : (s.setY v).y = v := rfl
@[simp] theorem State.setY_sp (v : Byte) : (s.setY v).sp = s.sp := rfl
@[simp] theorem State.setY_pc (v : Byte) : (s.setY v).pc = s.pc := rfl
@[simp] theorem State.setY_flags (v : Byte) : (s.setY v).flags = s.flags := rfl
@[simp] theorem State.setY_running (v : Byte) : (s.setY v).running = s.running := rfl
@[simp] theorem State.setY_fault (v : Byte) : (s.setY v).fault = s.fault := rfl
@[simp] theorem State.setY_cycleCount (v : Byte) : (s.setY v).cycleCount = s.cycleCount := rfl
@[simp] theorem State.setY_mem (v : Byte) : (s.setY v).mem = s.mem := rfl
@[simp] theorem State.setY_cfg (v : Byte) : (s.setY v).cfg = s.cfg := rfl

@[simp] theorem State.setSp_a (v : Byte) : (s.setSp v).a = s.a := rfl
@[simp] theorem State.setSp_x (v : Byte) : (s.setSp v).x = s.x := rfl
@[simp] theorem State.setSp_y (v : Byte) : (s.setSp v).y = s.y := rfl
@[simp] theorem State.setSp_sp (v : Byte) : (s.setSp v).sp = v := rfl
@[simp] theorem State.setSp_pc (v : Byte) : (s.setSp v).pc = s.pc := rfl
@[simp] theorem State.setSp_flags (v : Byte) : (s.setSp v).flags = s.flags := rfl
@[simp] theorem State.setSp_running (v : Byte) : (s.setSp v).running = s.running := rfl
@[simp] theorem State.setSp_fault (v : Byte) : (s.setSp v).fault = s.fault := rfl
@[simp] theorem State.setSp_cycleCount (v : Byte) : (s.setSp v).cycleCount = s.cycleCount := rfl
@[simp] theorem State.setSp_mem (v : Byte) : (s.setSp v).mem = s.mem := rfl
@[simp] theorem State.setSp_cfg (v : Byte) : (s.setSp v).cfg = s.cfg := rfl

@[simp] theorem State.setPc_a (v : Addr) : (s.setPc v).a = s.a := rfl
@[simp] theorem State.setPc_x (v : Addr) : (s.setPc v).x = s.x := rfl
@[simp] theorem State.setPc_y (v : Addr) : (s.setPc v).y = s.y := rfl
@[simp] theorem State.setPc_sp (v : Addr) : (s.setPc v).sp = s.sp := rfl
@[simp] theorem State.setPc_pc (v : Addr) : (s.setPc v).pc = v := rfl
@[simp] theorem State.setPc_flags (v : Addr) : (s.setPc v).flags = s.flags := rfl
@[simp] theorem State.setPc_running (v : Addr) : (s.setPc v).running = s.running := rfl
@[simp] theorem State.setPc_fault (v : Addr) : (s.setPc v).fault = s.fault := rfl
@[simp] theorem State.setPc_cycleCount (v : Addr) : (s.setPc v).cycleCount = s.cycleCount := rfl
@[simp] theorem State.setPc_mem (v : Addr) : (s.setPc v).mem = s.mem := rfl
@[simp] theorem State.setPc_cfg (v : Addr) : (s.setPc v).cfg = s.cfg := rfl

@[simp] theorem State.setFlags_a (v : Flags) : (s.setFlags v).a = s.a := rfl
@[simp] theorem State.setFlags_x (v : Flags) : (s.setFlags v).x = s.x := rfl
@[simp] theorem State.setFlags_y (v : Flags) : (s.setFlags v).y = s.y := rfl
@[simp] theorem State.setFlags_sp (v : Flags) : (s.setFlags v).sp = s.sp := rfl
@[simp] theorem State.setFlags_pc (v : Flags) : (s.setFlags v).pc = s.pc := rfl
@[simp] theorem State.setFlags_flags (v : Flags) : (s.setFlags v).flags = v := rfl
@[simp] theorem State.setFlags_running (v : Flags) : (s.setFlags v).running = s.running := rfl
@[simp] theorem State.setFlags_fault (v : Flags) : (s.setFlags v).fault = s.fault := rfl
@[simp] theorem State.setFlags_cycleCount (v : Flags) : (s.setFlags v).cycleCount = s.cycleCount := rfl
@[simp] theorem State.setFlags_mem (v : Flags) : (s.setFlags v).mem = s.mem := rfl
@[simp] theorem State.setFlags_cfg (v : Flags) : (s.setFlags v).cfg = s.cfg := rfl

@[simp] theorem State.setRunning_a (v : Bool) : (s.setRunning v).a = s.a := rfl
@[simp] theorem State.setRunning_x (v : Bool) : (s.setRunning v).x = s.x := rfl
@[simp] theorem State.setRunning_y (v : Bool) : (s.setRunning v).y = s.y := rfl
@[simp] theorem State.setRunning_sp (v : Bool) : (s.setRunning v).sp = s.sp := rfl
@[simp] theorem State.setRunning_pc (v : Bool) : (s.setRunning v).pc = s.pc := rfl
@[simp] theorem State.setRunning_flags (v : Bool) : (s.setRunning v).flags = s.flags := rfl
@[simp] theorem State.setRunning_running (v : Bool) : (s.setRunning v).running = v := rfl
@[simp] theorem State.setRunning_fault (v : Bool) : (s.setRunning v).fault = s.fault := rfl
@[simp] theorem State.setRunning_cycleCount (v : Bool) : (s.setRunning v).cycleCount = s.cycleCount := rfl
@[simp] theorem State.setRunning_mem (v : Bool) : (s.setRunning v).mem = s.mem := rfl
@[simp] theorem State.setRunning_cfg (v : Bool) : (s.setRunning v).cfg = s.cfg := rfl

@[simp] theorem State.setFault_a (v : FaultCode) : (s.setFault v).a = s.a := rfl
@[simp] theorem State.setFault_x (v : FaultCode) : (s.setFault v).x = s.x := rfl
@[simp] theorem State.setFault_y (v : FaultCode) : (s.setFault v).y = s.y := rfl
@[simp] theorem State.setFault_sp (v : FaultCode) : (s.setFault v).sp = s.sp := rfl
@[simp] theorem State.setFault_pc (v : FaultCode) : (s.setFault v).pc = s.pc := rfl
@[simp] theorem State.setFault_flags (v : FaultCode) : (s.setFault v).flags = s.flags := rfl
@[simp] theorem State.setFault_running (v : FaultCode) : (s.setFault v).running = s.running := rfl
@[simp] theorem State.setFault_fault (v : FaultCode) : (s.setFault v).fault = v := rfl
@[simp] theorem State.setFault_cycleCount (v : FaultCode) : (s.setFault v).cycleCount = s.cycleCount := rfl
@[simp] theorem State.setFault_mem (v : FaultCode) : (s.setFault v).mem = s.mem := rfl
@[simp] theorem State.setFault_cfg (v : FaultCode) : (s.setFault v).cfg = s.cfg := rfl

@[simp] theorem State.setCycleCount_a (v : Nat) : (s.setCycleCount v).a = s.a := rfl
@[simp] theorem State.setCycleCount_x (v : Nat) : (s.setCycleCount v).x = s.x := rfl
@[simp] theorem State.setCycleCount_y (v : Nat) : (s.setCycleCount v).y = s.y := rfl
@[simp] theorem State.setCycleCount_sp (v : Nat) : (s.setCycleCount v).sp = s.sp := rfl
@[simp] theorem State.setCycleCount_pc (v : Nat) : (s.setCycleCount v).pc = s.pc := rfl
@[simp] theorem State.setCycleCount_flags (v : Nat) : (s.setCycleCount v).flags = s.flags := rfl
@[simp] theorem State.setCycleCount_running (v : Nat) : (s.setCycleCount v).running = s.running := rfl
@[simp] theorem State.setCycleCount_fault (v : Nat) : (s.setCycleCount v).fault = s.fault := rfl
@[simp] theorem State.setCycleCount_cycleCount (v : Nat) : (s.setCycleCount v).cycleCount = v := rfl
@[simp] theorem State.setCycleCount_mem (v : Nat) : (s.setCycleCount v).mem = s.mem := rfl
@[simp] theorem State.setCycleCount_cfg (v : Nat) : (s.setCycleCount v).cfg = s.cfg := rfl

@[simp] theorem State.setMem_a (v : Memory) : (s.setMem v).a = s.a := rfl
@[simp] theorem State.setMem_x (v : Memory) : (s.setMem v).x = s.x := rfl
@[simp] theorem State.setMem_y (v : Memory) : (s.setMem v).y = s.y := rfl
@[simp] theorem State.setMem_sp (v : Memory) : (s.setMem v).sp = s.sp := rfl
@[simp] theorem State.setMem_pc (v : Memory) : (s.setMem v).pc = s.pc := rfl
@[simp] theorem State.setMem_flags (v : Memory) : (s.setMem v).flags = s.flags := rfl
@[simp] theorem State.setMem_running (v : Memory) : (s.setMem v).running = s.running := rfl
@[simp] theorem State.setMem_fault (v : Memory) : (s.setMem v).fault = s.fault := rfl
@[simp] theorem State.setMem_cycleCount (v : Memory) : (s.setMem v).cycleCount = s.cycleCount := rfl
@[simp] theorem State.setMem_mem (v : Memory) : (s.setMem v).mem = v := rfl
@[simp] theorem State.setMem_cfg (v : Memory) : (s.setMem v).cfg = s.cfg := rfl

end Sys2Proof.Machine
end

