-- ==== Sys2Proof/Laws/Ops.lean ====
section
/-! SUPPORT. What each shared operation does: the fields it leaves alone, and one lemma for the rest. -/

namespace Sys2Proof.Machine

variable (s : State)

@[simp] theorem State.addr_eq (v : Nat) : s.addr v = s.cfg.bus.addr v := rfl

/-- `MemRead` is the byte at the reduced address (R55). -/
theorem memRead_eq (a : Nat) : memRead a s = s.byteAt (s.cfg.bus.addr a) := rfl

theorem memRead_addr (a : Addr) (h : a.toNat < s.cfg.bus.size) : memRead a.toNat s = s.byteAt a := by
  rw [memRead_eq, s.cfg.bus.addr_of_lt a h]

theorem memRead_congr {s t : State} (hc : t.cfg = s.cfg) (hm : t.mem = s.mem) (a : Nat) :
    memRead a t = memRead a s := by simp [memRead, hc, hm]

/-! ## `memWrite` -/


@[simp] theorem memWrite_a (a : Nat) (v : Byte) : (memWrite a v s).a = s.a := by unfold memWrite; split <;> rfl
@[simp] theorem memWrite_x (a : Nat) (v : Byte) : (memWrite a v s).x = s.x := by unfold memWrite; split <;> rfl
@[simp] theorem memWrite_y (a : Nat) (v : Byte) : (memWrite a v s).y = s.y := by unfold memWrite; split <;> rfl
@[simp] theorem memWrite_sp (a : Nat) (v : Byte) : (memWrite a v s).sp = s.sp := by unfold memWrite; split <;> rfl
@[simp] theorem memWrite_pc (a : Nat) (v : Byte) : (memWrite a v s).pc = s.pc := by unfold memWrite; split <;> rfl
@[simp] theorem memWrite_flags (a : Nat) (v : Byte) : (memWrite a v s).flags = s.flags := by unfold memWrite; split <;> rfl
@[simp] theorem memWrite_running (a : Nat) (v : Byte) : (memWrite a v s).running = s.running := by unfold memWrite; split <;> rfl
@[simp] theorem memWrite_cycleCount (a : Nat) (v : Byte) : (memWrite a v s).cycleCount = s.cycleCount := by unfold memWrite; split <;> rfl
@[simp] theorem memWrite_cfg (a : Nat) (v : Byte) : (memWrite a v s).cfg = s.cfg := by unfold memWrite; split <;> rfl

theorem memWrite_fault (a : Nat) (v : Byte) :
    (memWrite a v s).fault = if s.cfg.isWritable (s.cfg.bus.addr a) then s.fault else .outOfBoundsWrite := by
  unfold memWrite; simp only [State.addr_eq]; split <;> simp [*]

theorem memWrite_mem (a : Nat) (v : Byte) :
    (memWrite a v s).mem =
      if s.cfg.isWritable (s.cfg.bus.addr a) then Memory.write s.mem (s.cfg.bus.addr a).toNat v else s.mem := by
  unfold memWrite; simp only [State.addr_eq]; split <;> simp [*]

theorem memWrite_writable (a : Nat) (v : Byte) (h : s.cfg.isWritable (s.cfg.bus.addr a) = true) :
    memWrite a v s = s.setMem (Memory.write s.mem (s.cfg.bus.addr a).toNat v) := by
  simp [memWrite, h]

theorem memWrite_protected (a : Nat) (v : Byte) (h : s.cfg.isWritable (s.cfg.bus.addr a) = false) :
    memWrite a v s = s.setFault .outOfBoundsWrite := by
  simp [memWrite, h]

/-- Every byte after a write: the written one if its address is writable, every other as before (R56). -/
theorem memWrite_byteAt (a : Nat) (v : Byte) (b : Addr) (h : Memory.wf s.mem) :
    (memWrite a v s).byteAt b =
      if b = s.cfg.bus.addr a ∧ s.cfg.isWritable (s.cfg.bus.addr a) = true then v else s.byteAt b := by
  unfold State.byteAt
  rw [memWrite_mem]
  split
  · rw [Memory.read_write _ _ _ _ h]
    simp only [BitVec.toNat_inj, and_true, *]
  · simp [*]

theorem memWrite_wf (a : Nat) (v : Byte) (h : Memory.wf s.mem) : Memory.wf (memWrite a v s).mem := by
  rw [memWrite_mem]; split
  · exact Memory.wf_write _ _ _ h
  · exact h

theorem memWrite_inSpace (a : Nat) (v : Byte) (h : Memory.inSpace s.cfg.bus s.mem) :
    Memory.inSpace s.cfg.bus (memWrite a v s).mem := by
  rw [memWrite_mem]; split
  · exact Memory.inSpace_write _ _ _ _ h (s.cfg.bus.addr_lt a)
  · exact h

/-! ## The stack -/

theorem stackAddr_lt (sp : Byte) : stackAddr sp < 0x200 := by
  have := sp.isLt
  unfold stackAddr; omega

theorem stackAddr_lt_size (bus : BusWidth) (sp : Byte) : stackAddr sp < bus.size := by
  have := stackAddr_lt sp
  have : 0x200 ≤ bus.size := by cases bus <;> decide
  omega

@[simp] theorem addr_stackAddr_toNat (bus : BusWidth) (sp : Byte) :
    (bus.addr (stackAddr sp)).toNat = stackAddr sp := by
  rw [bus.addr_toNat, Nat.mod_eq_of_lt (stackAddr_lt_size bus sp)]

/-- Different stack offsets are different addresses. -/
theorem addr_stackAddr_inj (bus : BusWidth) (p q : Byte) :
    bus.addr (stackAddr p) = bus.addr (stackAddr q) ↔ p = q := by
  constructor
  · intro h
    have h := congrArg BitVec.toNat h
    rw [addr_stackAddr_toNat, addr_stackAddr_toNat] at h
    exact BitVec.eq_of_toNat_eq (Nat.add_left_cancel h)
  · rintro rfl; rfl

@[simp] theorem push_a (v : Byte) : (push v s).a = s.a := by simp [push]
@[simp] theorem push_x (v : Byte) : (push v s).x = s.x := by simp [push]
@[simp] theorem push_y (v : Byte) : (push v s).y = s.y := by simp [push]
@[simp] theorem push_pc (v : Byte) : (push v s).pc = s.pc := by simp [push]
@[simp] theorem push_flags (v : Byte) : (push v s).flags = s.flags := by simp [push]
@[simp] theorem push_running (v : Byte) : (push v s).running = s.running := by simp [push]
@[simp] theorem push_cycleCount (v : Byte) : (push v s).cycleCount = s.cycleCount := by simp [push]
@[simp] theorem push_cfg (v : Byte) : (push v s).cfg = s.cfg := by simp [push]

@[simp] theorem push_sp (v : Byte) : (push v s).sp = s.sp - 1#8 := by simp [push]
@[simp] theorem push_mem (v : Byte) : (push v s).mem = (memWrite (stackAddr s.sp) v s).mem := by simp [push]
@[simp] theorem push_fault (v : Byte) : (push v s).fault = (memWrite (stackAddr s.sp) v s).fault := by simp [push]

theorem push_byteAt (v : Byte) (b : Addr) : (push v s).byteAt b = (memWrite (stackAddr s.sp) v s).byteAt b := by
  simp [State.byteAt]


@[simp] theorem pushAll_a (vs : List Byte) : (pushAll vs s).a = s.a := by
  induction vs generalizing s <;> simp [pushAll, *]
@[simp] theorem pushAll_x (vs : List Byte) : (pushAll vs s).x = s.x := by
  induction vs generalizing s <;> simp [pushAll, *]
@[simp] theorem pushAll_y (vs : List Byte) : (pushAll vs s).y = s.y := by
  induction vs generalizing s <;> simp [pushAll, *]
@[simp] theorem pushAll_pc (vs : List Byte) : (pushAll vs s).pc = s.pc := by
  induction vs generalizing s <;> simp [pushAll, *]
@[simp] theorem pushAll_flags (vs : List Byte) : (pushAll vs s).flags = s.flags := by
  induction vs generalizing s <;> simp [pushAll, *]
@[simp] theorem pushAll_running (vs : List Byte) : (pushAll vs s).running = s.running := by
  induction vs generalizing s <;> simp [pushAll, *]
@[simp] theorem pushAll_cycleCount (vs : List Byte) : (pushAll vs s).cycleCount = s.cycleCount := by
  induction vs generalizing s <;> simp [pushAll, *]
@[simp] theorem pushAll_cfg (vs : List Byte) : (pushAll vs s).cfg = s.cfg := by
  induction vs generalizing s <;> simp [pushAll, *]

@[simp] theorem pushAll_sp (vs : List Byte) : (pushAll vs s).sp = s.sp - BitVec.ofNat 8 vs.length := by
  induction vs generalizing s with
  | nil => simp [pushAll]
  | cons v vs ih =>
    simp only [pushAll, ih, push_sp, List.length_cons]
    bv_omega

theorem pushAll_wf (vs : List Byte) (h : Memory.wf s.mem) : Memory.wf (pushAll vs s).mem := by
  induction vs generalizing s with
  | nil => exact h
  | cons v vs ih => exact ih _ (by simpa using memWrite_wf s _ v h)

theorem pushAll_inSpace (vs : List Byte) (h : Memory.inSpace s.cfg.bus s.mem) :
    Memory.inSpace s.cfg.bus (pushAll vs s).mem := by
  induction vs generalizing s with
  | nil => exact h
  | cons v vs ih => simpa [pushAll] using ih (push v s) (by simpa using memWrite_inSpace s _ v h)

theorem pushAll_append (vs ws : List Byte) : pushAll (vs ++ ws) s = pushAll ws (pushAll vs s) := by
  induction vs generalizing s with
  | nil => rfl
  | cons v vs ih => exact ih _

/-- Pushing goes from no fault to no fault exactly if every stack byte it writes is writable (R56). -/
theorem pushAll_fault (vs : List Byte) :
    (pushAll vs s).fault =
      if ∃ k < vs.length, s.cfg.isWritable (s.cfg.bus.addr (stackAddr (s.sp - BitVec.ofNat 8 k))) = false
      then .outOfBoundsWrite else s.fault := by
  induction vs generalizing s with
  | nil => simp [pushAll]
  | cons v vs ih =>
    rw [pushAll, ih]
    simp only [push_cfg, push_sp, push_fault, memWrite_fault, List.length_cons]
    have hk : ∀ k, s.sp - 1#8 - BitVec.ofNat 8 k = s.sp - BitVec.ofNat 8 (k + 1) := by intro k; bv_omega
    simp only [hk]
    by_cases h0 : s.cfg.isWritable (s.cfg.bus.addr (stackAddr s.sp)) = true
    · simp only [h0, if_true]
      congr 1
      apply propext
      constructor
      · rintro ⟨k, hl, hw⟩; exact ⟨k + 1, by omega, hw⟩
      · rintro ⟨k, hl, hw⟩
        cases k with
        | zero => simp [h0] at hw
        | succ k => exact ⟨k, by omega, hw⟩
    · have h0 : s.cfg.isWritable (s.cfg.bus.addr (stackAddr s.sp)) = false := by simpa using h0
      have : ∃ k < vs.length + 1,
          s.cfg.isWritable (s.cfg.bus.addr (stackAddr (s.sp - BitVec.ofNat 8 k))) = false :=
        ⟨0, by omega, by simpa using h0⟩
      rw [if_pos this]
      simp [h0]

/-- A byte that is on none of the pushed slots, or on a protected one, reads as before (R56, R61). -/
theorem pushAll_byteAt_of_not (vs : List Byte) (b : Addr) (h : Memory.wf s.mem)
    (hb : ∀ k < vs.length, b = s.cfg.bus.addr (stackAddr (s.sp - BitVec.ofNat 8 k)) → s.cfg.isWritable b = false) :
    (pushAll vs s).byteAt b = s.byteAt b := by
  induction vs generalizing s with
  | nil => rfl
  | cons v vs ih =>
    rw [pushAll, ih (push v s) (by simpa using memWrite_wf s _ v h), push_byteAt, memWrite_byteAt _ _ _ _ h, if_neg]
    · rintro ⟨rfl, hw⟩
      have := hb 0 (by simp) (by simp)
      simp_all
    · intro k hk he
      simp only [push_cfg, push_sp] at he ⊢
      exact hb (k + 1) (by simpa using hk)
        (by rw [he]; congr 2; bv_omega)

/-- The pushed bytes, first one highest, where the slot is writable (R61); at most 256 of them, so that no slot is written twice. -/
theorem pushAll_byteAt (vs : List Byte) (k : Nat) (hk : k < vs.length) (hl : vs.length ≤ 256) (h : Memory.wf s.mem)
    (hw : s.cfg.isWritable (s.cfg.bus.addr (stackAddr (s.sp - BitVec.ofNat 8 k))) = true) :
    (pushAll vs s).byteAt (s.cfg.bus.addr (stackAddr (s.sp - BitVec.ofNat 8 k))) = vs[k] := by
  induction vs generalizing s k with
  | nil => simp at hk
  | cons v vs ih =>
    have hwf : Memory.wf (push v s).mem := by simpa using memWrite_wf s _ v h
    simp only [List.length_cons] at hk hl
    cases k with
    | zero =>
      have hw0 : s.cfg.isWritable (s.cfg.bus.addr (stackAddr s.sp)) = true := by simpa using hw
      rw [pushAll, pushAll_byteAt_of_not _ _ _ hwf]
      · rw [push_byteAt, memWrite_byteAt _ _ _ _ h]
        simp [hw0]
      · intro j hj he
        simp only [push_cfg, push_sp, addr_stackAddr_inj] at he
        have : j % 256 = j := Nat.mod_eq_of_lt (by omega)
        bv_omega
    | succ k =>
      have hk1 : s.sp - BitVec.ofNat 8 (k + 1) = (push v s).sp - BitVec.ofNat 8 k := by
        simp only [push_sp]; bv_omega
      have := ih (push v s) k (by omega) (by omega) hwf (by rw [← hk1]; simpa using hw)
      simpa [pushAll, hk1] using this


@[simp] theorem pop_fst : (pop s).1 = memRead (stackAddr (s.sp + 1#8)) s := rfl
@[simp] theorem pop_snd : (pop s).2 = s.setSp (s.sp + 1#8) := rfl

/-- Popping `n` bytes reads the next `n` slots upwards and moves SP by `n`; nothing else changes (R62). -/
theorem popAll_eq (n : Nat) :
    popAll n s = ((List.range n).map fun k => memRead (stackAddr (s.sp + BitVec.ofNat 8 (k + 1))) s,
      s.setSp (s.sp + BitVec.ofNat 8 n)) := by
  induction n generalizing s with
  | zero => simp [popAll, State.setSp]
  | succ n ih =>
    have h1 : ∀ k, s.sp + 1#8 + BitVec.ofNat 8 k = s.sp + BitVec.ofNat 8 (k + 1) := by intro k; bv_omega
    simp only [popAll, ih, pop_fst, pop_snd, State.setSp_sp, h1, List.range_succ_eq_map, List.map_cons, List.map_map,
      Prod.mk.injEq, List.cons.injEq]
    exact ⟨⟨trivial, rfl⟩, rfl⟩

/-- `PopAddr` (R64). -/
theorem popAddr_eq :
    popAddr s = (leNat ((List.range s.cfg.bus.bytes).map fun k =>
        memRead (stackAddr (s.sp + BitVec.ofNat 8 (k + 1))) s),
      s.setSp (s.sp + BitVec.ofNat 8 s.cfg.bus.bytes)) := by
  simp [popAddr, popAll_eq]

/-! ## PC, cycles, end of a step -/

@[simp] theorem advance_a (t : ModeTag) : (advance t s).a = s.a := by rfl
@[simp] theorem advance_x (t : ModeTag) : (advance t s).x = s.x := by rfl
@[simp] theorem advance_y (t : ModeTag) : (advance t s).y = s.y := by rfl
@[simp] theorem advance_sp (t : ModeTag) : (advance t s).sp = s.sp := by rfl
@[simp] theorem advance_flags (t : ModeTag) : (advance t s).flags = s.flags := by rfl
@[simp] theorem advance_running (t : ModeTag) : (advance t s).running = s.running := by rfl
@[simp] theorem advance_fault (t : ModeTag) : (advance t s).fault = s.fault := by rfl
@[simp] theorem advance_cycleCount (t : ModeTag) : (advance t s).cycleCount = s.cycleCount := by rfl
@[simp] theorem advance_mem (t : ModeTag) : (advance t s).mem = s.mem := by rfl
@[simp] theorem advance_cfg (t : ModeTag) : (advance t s).cfg = s.cfg := by rfl
@[simp] theorem advance_pc (t : ModeTag) :
    (advance t s).pc = s.cfg.bus.addr (s.pc.toNat + 1 + t.nbytes s.cfg.bus) := rfl

@[simp] theorem addCycles_a (n : Nat) : (addCycles n s).a = s.a := by rfl
@[simp] theorem addCycles_x (n : Nat) : (addCycles n s).x = s.x := by rfl
@[simp] theorem addCycles_y (n : Nat) : (addCycles n s).y = s.y := by rfl
@[simp] theorem addCycles_sp (n : Nat) : (addCycles n s).sp = s.sp := by rfl
@[simp] theorem addCycles_pc (n : Nat) : (addCycles n s).pc = s.pc := by rfl
@[simp] theorem addCycles_flags (n : Nat) : (addCycles n s).flags = s.flags := by rfl
@[simp] theorem addCycles_running (n : Nat) : (addCycles n s).running = s.running := by rfl
@[simp] theorem addCycles_fault (n : Nat) : (addCycles n s).fault = s.fault := by rfl
@[simp] theorem addCycles_mem (n : Nat) : (addCycles n s).mem = s.mem := by rfl
@[simp] theorem addCycles_cfg (n : Nat) : (addCycles n s).cfg = s.cfg := by rfl
@[simp] theorem addCycles_cycleCount (n : Nat) :
    (addCycles n s).cycleCount = s.cfg.wrapCycles (s.cycleCount + n) := rfl

@[simp] theorem haltOnFault_a : (haltOnFault s).a = s.a := by unfold haltOnFault; split <;> rfl
@[simp] theorem haltOnFault_x : (haltOnFault s).x = s.x := by unfold haltOnFault; split <;> rfl
@[simp] theorem haltOnFault_y : (haltOnFault s).y = s.y := by unfold haltOnFault; split <;> rfl
@[simp] theorem haltOnFault_sp : (haltOnFault s).sp = s.sp := by unfold haltOnFault; split <;> rfl
@[simp] theorem haltOnFault_pc : (haltOnFault s).pc = s.pc := by unfold haltOnFault; split <;> rfl
@[simp] theorem haltOnFault_flags : (haltOnFault s).flags = s.flags := by unfold haltOnFault; split <;> rfl
@[simp] theorem haltOnFault_fault : (haltOnFault s).fault = s.fault := by unfold haltOnFault; split <;> rfl
@[simp] theorem haltOnFault_cycleCount : (haltOnFault s).cycleCount = s.cycleCount := by unfold haltOnFault; split <;> rfl
@[simp] theorem haltOnFault_mem : (haltOnFault s).mem = s.mem := by unfold haltOnFault; split <;> rfl
@[simp] theorem haltOnFault_cfg : (haltOnFault s).cfg = s.cfg := by unfold haltOnFault; split <;> rfl
@[simp] theorem haltOnFault_running :
    (haltOnFault s).running = (s.running && s.fault == .none) := by
  cases h : s.fault <;> simp [haltOnFault, h]

theorem haltOnFault_of_none (h : s.fault = .none) : haltOnFault s = s := by simp [haltOnFault, h]

@[simp] theorem retire_a (c : Nat) (t : Bool) : (retire c t s).a = s.a := by simp [retire]
@[simp] theorem retire_x (c : Nat) (t : Bool) : (retire c t s).x = s.x := by simp [retire]
@[simp] theorem retire_y (c : Nat) (t : Bool) : (retire c t s).y = s.y := by simp [retire]
@[simp] theorem retire_sp (c : Nat) (t : Bool) : (retire c t s).sp = s.sp := by simp [retire]
@[simp] theorem retire_pc (c : Nat) (t : Bool) : (retire c t s).pc = s.pc := by simp [retire]
@[simp] theorem retire_flags (c : Nat) (t : Bool) : (retire c t s).flags = s.flags := by simp [retire]
@[simp] theorem retire_fault (c : Nat) (t : Bool) : (retire c t s).fault = s.fault := by simp [retire]
@[simp] theorem retire_mem (c : Nat) (t : Bool) : (retire c t s).mem = s.mem := by simp [retire]
@[simp] theorem retire_cfg (c : Nat) (t : Bool) : (retire c t s).cfg = s.cfg := by simp [retire]
@[simp] theorem retire_cycleCount (c : Nat) (t : Bool) :
    (retire c t s).cycleCount = s.cfg.wrapCycles (s.cycleCount + (c + bitNat t)) := by simp [retire]
@[simp] theorem retire_running (c : Nat) (t : Bool) :
    (retire c t s).running = (s.running && s.fault == .none) := by simp [retire]

/-- Without a fault, the end of a step only counts cycles (R117, R118). -/
theorem retire_of_none (c : Nat) (t : Bool) (h : s.fault = .none) :
    retire c t s = { s with cycleCount := s.cfg.wrapCycles (s.cycleCount + (c + bitNat t)) } := by
  rw [retire, haltOnFault_of_none _ (by simpa using h)]; rfl

/-- With a fault, it halts the engine as well (R118). -/
theorem retire_of_fault (c : Nat) (t : Bool) (h : s.fault = .outOfBoundsWrite) :
    retire c t s = { s with cycleCount := s.cfg.wrapCycles (s.cycleCount + (c + bitNat t)), running := false } := by
  simp [retire, haltOnFault, h, addCycles, State.setCycleCount, State.setRunning]

@[simp] theorem setZN_a (v : Byte) : (setZN v s).a = s.a := by rfl
@[simp] theorem setZN_x (v : Byte) : (setZN v s).x = s.x := by rfl
@[simp] theorem setZN_y (v : Byte) : (setZN v s).y = s.y := by rfl
@[simp] theorem setZN_sp (v : Byte) : (setZN v s).sp = s.sp := by rfl
@[simp] theorem setZN_pc (v : Byte) : (setZN v s).pc = s.pc := by rfl
@[simp] theorem setZN_running (v : Byte) : (setZN v s).running = s.running := by rfl
@[simp] theorem setZN_fault (v : Byte) : (setZN v s).fault = s.fault := by rfl
@[simp] theorem setZN_cycleCount (v : Byte) : (setZN v s).cycleCount = s.cycleCount := by rfl
@[simp] theorem setZN_mem (v : Byte) : (setZN v s).mem = s.mem := by rfl
@[simp] theorem setZN_cfg (v : Byte) : (setZN v s).cfg = s.cfg := by rfl
@[simp] theorem setZN_flags (v : Byte) : (setZN v s).flags = Flags.setZN v s.flags := rfl

@[simp] theorem setPS_a (v : Byte) : (setPS v s).a = s.a := by rfl
@[simp] theorem setPS_x (v : Byte) : (setPS v s).x = s.x := by rfl
@[simp] theorem setPS_y (v : Byte) : (setPS v s).y = s.y := by rfl
@[simp] theorem setPS_sp (v : Byte) : (setPS v s).sp = s.sp := by rfl
@[simp] theorem setPS_pc (v : Byte) : (setPS v s).pc = s.pc := by rfl
@[simp] theorem setPS_running (v : Byte) : (setPS v s).running = s.running := by rfl
@[simp] theorem setPS_fault (v : Byte) : (setPS v s).fault = s.fault := by rfl
@[simp] theorem setPS_cycleCount (v : Byte) : (setPS v s).cycleCount = s.cycleCount := by rfl
@[simp] theorem setPS_mem (v : Byte) : (setPS v s).mem = s.mem := by rfl
@[simp] theorem setPS_cfg (v : Byte) : (setPS v s).cfg = s.cfg := by rfl
@[simp] theorem setPS_flags (v : Byte) : (setPS v s).flags = Flags.ofByte v := rfl

@[simp] theorem powerOff_a : (powerOff s).a = s.a := by unfold powerOff; split <;> rfl
@[simp] theorem powerOff_x : (powerOff s).x = s.x := by unfold powerOff; split <;> rfl
@[simp] theorem powerOff_y : (powerOff s).y = s.y := by unfold powerOff; split <;> rfl
@[simp] theorem powerOff_sp : (powerOff s).sp = s.sp := by unfold powerOff; split <;> rfl
@[simp] theorem powerOff_pc : (powerOff s).pc = s.pc := by unfold powerOff; split <;> rfl
@[simp] theorem powerOff_flags : (powerOff s).flags = s.flags := by unfold powerOff; split <;> rfl
@[simp] theorem powerOff_fault : (powerOff s).fault = s.fault := by unfold powerOff; split <;> rfl
@[simp] theorem powerOff_cycleCount : (powerOff s).cycleCount = s.cycleCount := by unfold powerOff; split <;> rfl
@[simp] theorem powerOff_mem : (powerOff s).mem = s.mem := by unfold powerOff; split <;> rfl
@[simp] theorem powerOff_cfg : (powerOff s).cfg = s.cfg := by unfold powerOff; split <;> rfl
@[simp] theorem powerOff_running : (powerOff s).running = (s.running && !s.cfg.brkHalts) := by
  unfold powerOff; split <;> simp_all

/-! ## Pushing does not look at PC -/

theorem memWrite_setPc (a : Nat) (v : Byte) (p : Addr) : memWrite a v (s.setPc p) = (memWrite a v s).setPc p := by
  cases h : s.cfg.isWritable (s.cfg.bus.addr a) <;> simp [memWrite, h, State.setPc, State.setMem, State.setFault]

theorem push_setPc (v : Byte) (p : Addr) : push v (s.setPc p) = (push v s).setPc p := by
  simp only [push, State.setPc_sp, memWrite_setPc]; rfl

theorem pushAll_setPc (vs : List Byte) (p : Addr) : pushAll vs (s.setPc p) = (pushAll vs s).setPc p := by
  induction vs generalizing s with
  | nil => rfl
  | cons v vs ih => simp only [pushAll, push_setPc, ih]

/-! ## Break -/

theorem pushAddr_eq (a : Addr) : pushAddr a s = pushAll (leBytes s.cfg.bus.bytes a.toNat).reverse s := rfl

/-- The bytes of a break frame, in push order (R250, R252). -/
theorem takeBreak_frame (ret : Addr) :
    push (getPS (pushAddr ret s)) (pushAddr ret s) =
      pushAll ((leBytes s.cfg.bus.bytes ret.toNat).reverse ++ [getPS s]) s := by
  rw [pushAll_append]
  have : getPS (pushAddr ret s) = getPS s := by simp [getPS, pushAddr]
  rw [this]; rfl

@[simp] theorem takeBreak_a (ret : Addr) : (takeBreak ret s).a = s.a := by simp [takeBreak, pushAddr]
@[simp] theorem takeBreak_x (ret : Addr) : (takeBreak ret s).x = s.x := by simp [takeBreak, pushAddr]
@[simp] theorem takeBreak_y (ret : Addr) : (takeBreak ret s).y = s.y := by simp [takeBreak, pushAddr]
@[simp] theorem takeBreak_running (ret : Addr) : (takeBreak ret s).running = s.running := by simp [takeBreak, pushAddr]
@[simp] theorem takeBreak_cycleCount (ret : Addr) : (takeBreak ret s).cycleCount = s.cycleCount := by simp [takeBreak, pushAddr]
@[simp] theorem takeBreak_cfg (ret : Addr) : (takeBreak ret s).cfg = s.cfg := by simp [takeBreak, pushAddr]

/-- Taking a break is the frame's pushes, then B and PC (R250). -/
theorem takeBreak_eq (ret : Addr) :
    takeBreak ret s =
      (let t := pushAll ((leBytes s.cfg.bus.bytes ret.toNat).reverse ++ [getPS s]) s
       (t.setFlags { s.flags with b := true }).setPc (readAddr s.cfg.brkVec t)) := by
  simp only [takeBreak, takeBreak_frame, pushAll_flags, State.setFlags_cfg, pushAll_cfg]
  rfl

/-! ## The host's writes -/

theorem hostWriteAll_cfg (vs : List Byte) (a : Nat) : (hostWriteAll vs a s).cfg = s.cfg := by
  induction vs generalizing s a <;> simp [hostWriteAll, *]

theorem hostWriteAll_wf (vs : List Byte) (a : Nat) (h : Memory.wf s.mem) : Memory.wf (hostWriteAll vs a s).mem := by
  induction vs generalizing s a with
  | nil => exact h
  | cons v vs ih => exact ih _ _ (Memory.wf_write _ _ _ h)

theorem initialise_wf (h : Memory.wf s.mem) : Memory.wf (initialise s).mem := Memory.wf_zeroRange _ _ _ h

theorem reset_mem_wf : Memory.wf State.reset.mem := Memory.wf_empty

/-- `reset()` overwrites every register and control bit: only memory and parameters of the old state count (R290, R292). -/
theorem resetEngine_congr {s t : State} (hm : t.mem = s.mem) (hc : t.cfg = s.cfg) : resetEngine t = resetEngine s := by
  simp [resetEngine, readAddr, hm, hc]

/-- The model's state after reset is `reset()` over the launch memory that lists nothing (log 5). -/
theorem resetEngine_eq_reset (hm : s.mem = Memory.empty) (hc : s.cfg = Config.standard) : resetEngine s = State.reset := by
  simp [resetEngine, State.reset, readAddr, hm, hc]

end Sys2Proof.Machine
end

