-- ==== Sys2Proof/Laws/Operands.lean ====
section
/-! SUPPORT. What the resolver gives and what it depends on. -/

namespace Sys2Proof.Machine

variable (s : State)

/-- Every effective address is an address of the bus (R130). -/
theorem effectiveAddress_lt (m : MemMode) : (effectiveAddress m s).toNat < s.cfg.bus.size := by
  cases m <;> exact BusWidth.addr_lt _ _

theorem readAddr_lt (p : Nat) : (readAddr p s).toNat < s.cfg.bus.size := BusWidth.addr_lt _ _

/-- The resolver depends on the parameters, the index registers, PC and memory, and on nothing else (R130). -/
theorem effectiveAddress_congr {s t : State} (m : MemMode) (hc : t.cfg = s.cfg) (hx : t.x = s.x) (hy : t.y = s.y)
    (hp : t.pc = s.pc) (hm : t.mem = s.mem) : effectiveAddress m t = effectiveAddress m s := by
  cases m <;> simp [effectiveAddress, readAddr, readAddrZP, hc, hx, hy, hp, hm]

theorem resolve_congr {s t : State} (m : AddressingMode) (hc : t.cfg = s.cfg) (hx : t.x = s.x) (hy : t.y = s.y)
    (hp : t.pc = s.pc) (hm : t.mem = s.mem) : resolve m t = resolve m s := by
  cases m <;> simp [resolve, effectiveAddress_congr _ hc hx hy hp hm]

theorem operandValue_congr {s t : State} (o : Operand) (hc : t.cfg = s.cfg) (ha : t.a = s.a) (hm : t.mem = s.mem) :
    operandValue o t = operandValue o s := by
  cases o <;> simp [operandValue, memRead, hc, ha, hm]

/-- An address the resolver gave is its own reduction. -/
theorem addr_effectiveAddress (m : MemMode) :
    s.cfg.bus.addr (effectiveAddress m s).toNat = effectiveAddress m s :=
  s.cfg.bus.addr_of_lt _ (effectiveAddress_lt s m)

/-! ## `writeBack` -/

@[simp] theorem writeBack_x (o : Operand) (v : Byte) : (writeBack o v s).x = s.x := by
  cases o <;> simp [writeBack]
@[simp] theorem writeBack_y (o : Operand) (v : Byte) : (writeBack o v s).y = s.y := by
  cases o <;> simp [writeBack]
@[simp] theorem writeBack_sp (o : Operand) (v : Byte) : (writeBack o v s).sp = s.sp := by
  cases o <;> simp [writeBack]
@[simp] theorem writeBack_pc (o : Operand) (v : Byte) : (writeBack o v s).pc = s.pc := by
  cases o <;> simp [writeBack]
@[simp] theorem writeBack_flags (o : Operand) (v : Byte) : (writeBack o v s).flags = s.flags := by
  cases o <;> simp [writeBack]
@[simp] theorem writeBack_running (o : Operand) (v : Byte) : (writeBack o v s).running = s.running := by
  cases o <;> simp [writeBack]
@[simp] theorem writeBack_cycleCount (o : Operand) (v : Byte) : (writeBack o v s).cycleCount = s.cycleCount := by
  cases o <;> simp [writeBack]
@[simp] theorem writeBack_cfg (o : Operand) (v : Byte) : (writeBack o v s).cfg = s.cfg := by
  cases o <;> simp [writeBack]

theorem writeBack_addr (ea : Addr) (v : Byte) : writeBack (.addr ea) v s = memWrite ea.toNat v s := rfl

theorem writeBack_acc (v : Byte) : writeBack .acc v s = s.setA v := rfl

end Sys2Proof.Machine
end

