-- ==== Sys2Proof/Laws/PerInstr.lean ====
section
/-! SUPPORT. The family of laws about every instruction: the opcode table's row for its opcode. -/

namespace Sys2Proof.Laws.TableRow

/-- The base cycles that 30_encoding.md R95 lists, written out once more beside the constructor. -/
def cycles : Instr → Nat
  | .ldaImm _ => 2
  | .ldaZp _ => 3
  | .ldaZpX _ => 4
  | .ldaAbs _ => 4
  | .ldaAbsX _ => 4
  | .ldaAbsY _ => 4
  | .ldaIndX _ => 6
  | .ldaIndY _ => 5
  | .ldxImm _ => 2
  | .ldxZp _ => 3
  | .ldxZpY _ => 4
  | .ldxAbs _ => 4
  | .ldxAbsY _ => 4
  | .ldyImm _ => 2
  | .ldyZp _ => 3
  | .ldyZpX _ => 4
  | .ldyAbs _ => 4
  | .ldyAbsX _ => 4
  | .staZp _ => 3
  | .staZpX _ => 4
  | .staAbs _ => 4
  | .staAbsX _ => 5
  | .staAbsY _ => 5
  | .staIndX _ => 6
  | .staIndY _ => 6
  | .stxZp _ => 3
  | .stxZpY _ => 4
  | .stxAbs _ => 4
  | .styZp _ => 3
  | .styZpX _ => 4
  | .styAbs _ => 4
  | .adcImm _ => 2
  | .adcZp _ => 3
  | .adcZpX _ => 4
  | .adcAbs _ => 4
  | .adcAbsX _ => 4
  | .adcAbsY _ => 4
  | .adcIndX _ => 6
  | .adcIndY _ => 5
  | .sbcImm _ => 2
  | .sbcZp _ => 3
  | .sbcZpX _ => 4
  | .sbcAbs _ => 4
  | .sbcAbsX _ => 4
  | .sbcAbsY _ => 4
  | .sbcIndX _ => 6
  | .sbcIndY _ => 5
  | .andImm _ => 2
  | .andZp _ => 3
  | .andZpX _ => 4
  | .andAbs _ => 4
  | .andAbsX _ => 4
  | .andAbsY _ => 4
  | .andIndX _ => 6
  | .andIndY _ => 5
  | .oraImm _ => 2
  | .oraZp _ => 3
  | .oraZpX _ => 4
  | .oraAbs _ => 4
  | .oraAbsX _ => 4
  | .oraAbsY _ => 4
  | .oraIndX _ => 6
  | .oraIndY _ => 5
  | .eorImm _ => 2
  | .eorZp _ => 3
  | .eorZpX _ => 4
  | .eorAbs _ => 4
  | .eorAbsX _ => 4
  | .eorAbsY _ => 4
  | .eorIndX _ => 6
  | .eorIndY _ => 5
  | .cmpImm _ => 2
  | .cmpZp _ => 3
  | .cmpZpX _ => 4
  | .cmpAbs _ => 4
  | .cmpAbsX _ => 4
  | .cmpAbsY _ => 4
  | .cmpIndX _ => 6
  | .cmpIndY _ => 5
  | .cpxImm _ => 2
  | .cpxZp _ => 3
  | .cpxAbs _ => 4
  | .cpyImm _ => 2
  | .cpyZp _ => 3
  | .cpyAbs _ => 4
  | .bitZp _ => 3
  | .bitAbs _ => 4
  | .aslAcc => 2
  | .aslZp _ => 5
  | .aslZpX _ => 6
  | .aslAbs _ => 6
  | .aslAbsX _ => 7
  | .lsrAcc => 2
  | .lsrZp _ => 5
  | .lsrZpX _ => 6
  | .lsrAbs _ => 6
  | .lsrAbsX _ => 7
  | .rolAcc => 2
  | .rolZp _ => 5
  | .rolZpX _ => 6
  | .rolAbs _ => 6
  | .rolAbsX _ => 7
  | .rorAcc => 2
  | .rorZp _ => 5
  | .rorZpX _ => 6
  | .rorAbs _ => 6
  | .rorAbsX _ => 7
  | .incZp _ => 5
  | .incZpX _ => 6
  | .incAbs _ => 6
  | .incAbsX _ => 7
  | .decZp _ => 5
  | .decZpX _ => 6
  | .decAbs _ => 6
  | .decAbsX _ => 7
  | .inx => 2
  | .iny => 2
  | .dex => 2
  | .dey => 2
  | .tax => 2
  | .tay => 2
  | .txa => 2
  | .tya => 2
  | .tsx => 2
  | .txs => 2
  | .clc => 2
  | .sec => 2
  | .cli => 2
  | .sei => 2
  | .cld => 2
  | .sed => 2
  | .clv => 2
  | .pha => 3
  | .pla => 4
  | .php => 3
  | .plp => 4
  | .nop => 2
  | .bcc _ => 2
  | .bcs _ => 2
  | .beq _ => 2
  | .bne _ => 2
  | .bmi _ => 2
  | .bpl _ => 2
  | .bvc _ => 2
  | .bvs _ => 2
  | .jmpAbs _ => 3
  | .jmpInd _ => 5
  | .jsr _ => 6
  | .rts => 6
  | .brk => 7
  | .rti => 6

/-- The row a mode's operand is built by, for every mode that has one. -/
def Builds (i : Instr) (f : Format) : Prop :=
  match f, i.mode with
  | .f0 j, .implied => j = i
  | .f0 j, .accumulator => j = i
  | .f1 mk, .immediate v => mk v = i
  | .f1 mk, .memory (.zeroPage b) => mk b = i
  | .f1 mk, .memory (.zeroPageX b) => mk b = i
  | .f1 mk, .memory (.zeroPageY b) => mk b = i
  | .f1 mk, .memory (.indirectX b) => mk b = i
  | .f1 mk, .memory (.indirectY b) => mk b = i
  | .f1 mk, .memory (.relative r) => mk r = i
  | .fa mk, .memory (.absolute a) => mk a = i
  | .fa mk, .memory (.absoluteX a) => mk a = i
  | .fa mk, .memory (.absoluteY a) => mk a = i
  | .fa mk, .memory (.indirect a) => mk a = i
  | _, _ => False

/-- The table's row for the instruction's opcode has its mnemonic and mode and builds it from its operand, and its
cost is the instruction's base cost. -/
def Statement (i : Instr) : Prop :=
  (∃ f, tableLookup i.opcode = some ⟨i.opcode, i.mnemonic, i.mode.tag, cycles i, f⟩ ∧ Builds i f) ∧
  i.baseCycles = cycles i

theorem of_row {i : Instr} {f : Format} (h : tableLookup i.opcode = some ⟨i.opcode, i.mnemonic, i.mode.tag, cycles i, f⟩)
    (hb : Builds i f) : Statement i := ⟨⟨f, h, hb⟩, by simp [Instr.baseCycles, h]⟩

theorem ldaImm (v : Byte) : Statement (.ldaImm v) := of_row rfl rfl
theorem ldaZp (b : Byte) : Statement (.ldaZp b) := of_row rfl rfl
theorem ldaZpX (b : Byte) : Statement (.ldaZpX b) := of_row rfl rfl
theorem ldaAbs (a : Addr) : Statement (.ldaAbs a) := of_row rfl rfl
theorem ldaAbsX (a : Addr) : Statement (.ldaAbsX a) := of_row rfl rfl
theorem ldaAbsY (a : Addr) : Statement (.ldaAbsY a) := of_row rfl rfl
theorem ldaIndX (b : Byte) : Statement (.ldaIndX b) := of_row rfl rfl
theorem ldaIndY (b : Byte) : Statement (.ldaIndY b) := of_row rfl rfl
theorem ldxImm (v : Byte) : Statement (.ldxImm v) := of_row rfl rfl
theorem ldxZp (b : Byte) : Statement (.ldxZp b) := of_row rfl rfl
theorem ldxZpY (b : Byte) : Statement (.ldxZpY b) := of_row rfl rfl
theorem ldxAbs (a : Addr) : Statement (.ldxAbs a) := of_row rfl rfl
theorem ldxAbsY (a : Addr) : Statement (.ldxAbsY a) := of_row rfl rfl
theorem ldyImm (v : Byte) : Statement (.ldyImm v) := of_row rfl rfl
theorem ldyZp (b : Byte) : Statement (.ldyZp b) := of_row rfl rfl
theorem ldyZpX (b : Byte) : Statement (.ldyZpX b) := of_row rfl rfl
theorem ldyAbs (a : Addr) : Statement (.ldyAbs a) := of_row rfl rfl
theorem ldyAbsX (a : Addr) : Statement (.ldyAbsX a) := of_row rfl rfl
theorem staZp (b : Byte) : Statement (.staZp b) := of_row rfl rfl
theorem staZpX (b : Byte) : Statement (.staZpX b) := of_row rfl rfl
theorem staAbs (a : Addr) : Statement (.staAbs a) := of_row rfl rfl
theorem staAbsX (a : Addr) : Statement (.staAbsX a) := of_row rfl rfl
theorem staAbsY (a : Addr) : Statement (.staAbsY a) := of_row rfl rfl
theorem staIndX (b : Byte) : Statement (.staIndX b) := of_row rfl rfl
theorem staIndY (b : Byte) : Statement (.staIndY b) := of_row rfl rfl
theorem stxZp (b : Byte) : Statement (.stxZp b) := of_row rfl rfl
theorem stxZpY (b : Byte) : Statement (.stxZpY b) := of_row rfl rfl
theorem stxAbs (a : Addr) : Statement (.stxAbs a) := of_row rfl rfl
theorem styZp (b : Byte) : Statement (.styZp b) := of_row rfl rfl
theorem styZpX (b : Byte) : Statement (.styZpX b) := of_row rfl rfl
theorem styAbs (a : Addr) : Statement (.styAbs a) := of_row rfl rfl
theorem adcImm (v : Byte) : Statement (.adcImm v) := of_row rfl rfl
theorem adcZp (b : Byte) : Statement (.adcZp b) := of_row rfl rfl
theorem adcZpX (b : Byte) : Statement (.adcZpX b) := of_row rfl rfl
theorem adcAbs (a : Addr) : Statement (.adcAbs a) := of_row rfl rfl
theorem adcAbsX (a : Addr) : Statement (.adcAbsX a) := of_row rfl rfl
theorem adcAbsY (a : Addr) : Statement (.adcAbsY a) := of_row rfl rfl
theorem adcIndX (b : Byte) : Statement (.adcIndX b) := of_row rfl rfl
theorem adcIndY (b : Byte) : Statement (.adcIndY b) := of_row rfl rfl
theorem sbcImm (v : Byte) : Statement (.sbcImm v) := of_row rfl rfl
theorem sbcZp (b : Byte) : Statement (.sbcZp b) := of_row rfl rfl
theorem sbcZpX (b : Byte) : Statement (.sbcZpX b) := of_row rfl rfl
theorem sbcAbs (a : Addr) : Statement (.sbcAbs a) := of_row rfl rfl
theorem sbcAbsX (a : Addr) : Statement (.sbcAbsX a) := of_row rfl rfl
theorem sbcAbsY (a : Addr) : Statement (.sbcAbsY a) := of_row rfl rfl
theorem sbcIndX (b : Byte) : Statement (.sbcIndX b) := of_row rfl rfl
theorem sbcIndY (b : Byte) : Statement (.sbcIndY b) := of_row rfl rfl
theorem andImm (v : Byte) : Statement (.andImm v) := of_row rfl rfl
theorem andZp (b : Byte) : Statement (.andZp b) := of_row rfl rfl
theorem andZpX (b : Byte) : Statement (.andZpX b) := of_row rfl rfl
theorem andAbs (a : Addr) : Statement (.andAbs a) := of_row rfl rfl
theorem andAbsX (a : Addr) : Statement (.andAbsX a) := of_row rfl rfl
theorem andAbsY (a : Addr) : Statement (.andAbsY a) := of_row rfl rfl
theorem andIndX (b : Byte) : Statement (.andIndX b) := of_row rfl rfl
theorem andIndY (b : Byte) : Statement (.andIndY b) := of_row rfl rfl
theorem oraImm (v : Byte) : Statement (.oraImm v) := of_row rfl rfl
theorem oraZp (b : Byte) : Statement (.oraZp b) := of_row rfl rfl
theorem oraZpX (b : Byte) : Statement (.oraZpX b) := of_row rfl rfl
theorem oraAbs (a : Addr) : Statement (.oraAbs a) := of_row rfl rfl
theorem oraAbsX (a : Addr) : Statement (.oraAbsX a) := of_row rfl rfl
theorem oraAbsY (a : Addr) : Statement (.oraAbsY a) := of_row rfl rfl
theorem oraIndX (b : Byte) : Statement (.oraIndX b) := of_row rfl rfl
theorem oraIndY (b : Byte) : Statement (.oraIndY b) := of_row rfl rfl
theorem eorImm (v : Byte) : Statement (.eorImm v) := of_row rfl rfl
theorem eorZp (b : Byte) : Statement (.eorZp b) := of_row rfl rfl
theorem eorZpX (b : Byte) : Statement (.eorZpX b) := of_row rfl rfl
theorem eorAbs (a : Addr) : Statement (.eorAbs a) := of_row rfl rfl
theorem eorAbsX (a : Addr) : Statement (.eorAbsX a) := of_row rfl rfl
theorem eorAbsY (a : Addr) : Statement (.eorAbsY a) := of_row rfl rfl
theorem eorIndX (b : Byte) : Statement (.eorIndX b) := of_row rfl rfl
theorem eorIndY (b : Byte) : Statement (.eorIndY b) := of_row rfl rfl
theorem cmpImm (v : Byte) : Statement (.cmpImm v) := of_row rfl rfl
theorem cmpZp (b : Byte) : Statement (.cmpZp b) := of_row rfl rfl
theorem cmpZpX (b : Byte) : Statement (.cmpZpX b) := of_row rfl rfl
theorem cmpAbs (a : Addr) : Statement (.cmpAbs a) := of_row rfl rfl
theorem cmpAbsX (a : Addr) : Statement (.cmpAbsX a) := of_row rfl rfl
theorem cmpAbsY (a : Addr) : Statement (.cmpAbsY a) := of_row rfl rfl
theorem cmpIndX (b : Byte) : Statement (.cmpIndX b) := of_row rfl rfl
theorem cmpIndY (b : Byte) : Statement (.cmpIndY b) := of_row rfl rfl
theorem cpxImm (v : Byte) : Statement (.cpxImm v) := of_row rfl rfl
theorem cpxZp (b : Byte) : Statement (.cpxZp b) := of_row rfl rfl
theorem cpxAbs (a : Addr) : Statement (.cpxAbs a) := of_row rfl rfl
theorem cpyImm (v : Byte) : Statement (.cpyImm v) := of_row rfl rfl
theorem cpyZp (b : Byte) : Statement (.cpyZp b) := of_row rfl rfl
theorem cpyAbs (a : Addr) : Statement (.cpyAbs a) := of_row rfl rfl
theorem bitZp (b : Byte) : Statement (.bitZp b) := of_row rfl rfl
theorem bitAbs (a : Addr) : Statement (.bitAbs a) := of_row rfl rfl
theorem aslAcc : Statement .aslAcc := of_row rfl rfl
theorem aslZp (b : Byte) : Statement (.aslZp b) := of_row rfl rfl
theorem aslZpX (b : Byte) : Statement (.aslZpX b) := of_row rfl rfl
theorem aslAbs (a : Addr) : Statement (.aslAbs a) := of_row rfl rfl
theorem aslAbsX (a : Addr) : Statement (.aslAbsX a) := of_row rfl rfl
theorem lsrAcc : Statement .lsrAcc := of_row rfl rfl
theorem lsrZp (b : Byte) : Statement (.lsrZp b) := of_row rfl rfl
theorem lsrZpX (b : Byte) : Statement (.lsrZpX b) := of_row rfl rfl
theorem lsrAbs (a : Addr) : Statement (.lsrAbs a) := of_row rfl rfl
theorem lsrAbsX (a : Addr) : Statement (.lsrAbsX a) := of_row rfl rfl
theorem rolAcc : Statement .rolAcc := of_row rfl rfl
theorem rolZp (b : Byte) : Statement (.rolZp b) := of_row rfl rfl
theorem rolZpX (b : Byte) : Statement (.rolZpX b) := of_row rfl rfl
theorem rolAbs (a : Addr) : Statement (.rolAbs a) := of_row rfl rfl
theorem rolAbsX (a : Addr) : Statement (.rolAbsX a) := of_row rfl rfl
theorem rorAcc : Statement .rorAcc := of_row rfl rfl
theorem rorZp (b : Byte) : Statement (.rorZp b) := of_row rfl rfl
theorem rorZpX (b : Byte) : Statement (.rorZpX b) := of_row rfl rfl
theorem rorAbs (a : Addr) : Statement (.rorAbs a) := of_row rfl rfl
theorem rorAbsX (a : Addr) : Statement (.rorAbsX a) := of_row rfl rfl
theorem incZp (b : Byte) : Statement (.incZp b) := of_row rfl rfl
theorem incZpX (b : Byte) : Statement (.incZpX b) := of_row rfl rfl
theorem incAbs (a : Addr) : Statement (.incAbs a) := of_row rfl rfl
theorem incAbsX (a : Addr) : Statement (.incAbsX a) := of_row rfl rfl
theorem decZp (b : Byte) : Statement (.decZp b) := of_row rfl rfl
theorem decZpX (b : Byte) : Statement (.decZpX b) := of_row rfl rfl
theorem decAbs (a : Addr) : Statement (.decAbs a) := of_row rfl rfl
theorem decAbsX (a : Addr) : Statement (.decAbsX a) := of_row rfl rfl
theorem inx : Statement .inx := of_row rfl rfl
theorem iny : Statement .iny := of_row rfl rfl
theorem dex : Statement .dex := of_row rfl rfl
theorem dey : Statement .dey := of_row rfl rfl
theorem tax : Statement .tax := of_row rfl rfl
theorem tay : Statement .tay := of_row rfl rfl
theorem txa : Statement .txa := of_row rfl rfl
theorem tya : Statement .tya := of_row rfl rfl
theorem tsx : Statement .tsx := of_row rfl rfl
theorem txs : Statement .txs := of_row rfl rfl
theorem clc : Statement .clc := of_row rfl rfl
theorem sec : Statement .sec := of_row rfl rfl
theorem cli : Statement .cli := of_row rfl rfl
theorem sei : Statement .sei := of_row rfl rfl
theorem cld : Statement .cld := of_row rfl rfl
theorem sed : Statement .sed := of_row rfl rfl
theorem clv : Statement .clv := of_row rfl rfl
theorem pha : Statement .pha := of_row rfl rfl
theorem pla : Statement .pla := of_row rfl rfl
theorem php : Statement .php := of_row rfl rfl
theorem plp : Statement .plp := of_row rfl rfl
theorem nop : Statement .nop := of_row rfl rfl
theorem bcc (r : Byte) : Statement (.bcc r) := of_row rfl rfl
theorem bcs (r : Byte) : Statement (.bcs r) := of_row rfl rfl
theorem beq (r : Byte) : Statement (.beq r) := of_row rfl rfl
theorem bne (r : Byte) : Statement (.bne r) := of_row rfl rfl
theorem bmi (r : Byte) : Statement (.bmi r) := of_row rfl rfl
theorem bpl (r : Byte) : Statement (.bpl r) := of_row rfl rfl
theorem bvc (r : Byte) : Statement (.bvc r) := of_row rfl rfl
theorem bvs (r : Byte) : Statement (.bvs r) := of_row rfl rfl
theorem jmpAbs (a : Addr) : Statement (.jmpAbs a) := of_row rfl rfl
theorem jmpInd (a : Addr) : Statement (.jmpInd a) := of_row rfl rfl
theorem jsr (a : Addr) : Statement (.jsr a) := of_row rfl rfl
theorem rts : Statement .rts := of_row rfl rfl
theorem brk : Statement .brk := of_row rfl rfl
theorem rti : Statement .rti := of_row rfl rfl

theorem all (i : Instr) : Statement i := by
  cases i
  case ldaImm v => exact ldaImm v
  case ldaZp b => exact ldaZp b
  case ldaZpX b => exact ldaZpX b
  case ldaAbs a => exact ldaAbs a
  case ldaAbsX a => exact ldaAbsX a
  case ldaAbsY a => exact ldaAbsY a
  case ldaIndX b => exact ldaIndX b
  case ldaIndY b => exact ldaIndY b
  case ldxImm v => exact ldxImm v
  case ldxZp b => exact ldxZp b
  case ldxZpY b => exact ldxZpY b
  case ldxAbs a => exact ldxAbs a
  case ldxAbsY a => exact ldxAbsY a
  case ldyImm v => exact ldyImm v
  case ldyZp b => exact ldyZp b
  case ldyZpX b => exact ldyZpX b
  case ldyAbs a => exact ldyAbs a
  case ldyAbsX a => exact ldyAbsX a
  case staZp b => exact staZp b
  case staZpX b => exact staZpX b
  case staAbs a => exact staAbs a
  case staAbsX a => exact staAbsX a
  case staAbsY a => exact staAbsY a
  case staIndX b => exact staIndX b
  case staIndY b => exact staIndY b
  case stxZp b => exact stxZp b
  case stxZpY b => exact stxZpY b
  case stxAbs a => exact stxAbs a
  case styZp b => exact styZp b
  case styZpX b => exact styZpX b
  case styAbs a => exact styAbs a
  case adcImm v => exact adcImm v
  case adcZp b => exact adcZp b
  case adcZpX b => exact adcZpX b
  case adcAbs a => exact adcAbs a
  case adcAbsX a => exact adcAbsX a
  case adcAbsY a => exact adcAbsY a
  case adcIndX b => exact adcIndX b
  case adcIndY b => exact adcIndY b
  case sbcImm v => exact sbcImm v
  case sbcZp b => exact sbcZp b
  case sbcZpX b => exact sbcZpX b
  case sbcAbs a => exact sbcAbs a
  case sbcAbsX a => exact sbcAbsX a
  case sbcAbsY a => exact sbcAbsY a
  case sbcIndX b => exact sbcIndX b
  case sbcIndY b => exact sbcIndY b
  case andImm v => exact andImm v
  case andZp b => exact andZp b
  case andZpX b => exact andZpX b
  case andAbs a => exact andAbs a
  case andAbsX a => exact andAbsX a
  case andAbsY a => exact andAbsY a
  case andIndX b => exact andIndX b
  case andIndY b => exact andIndY b
  case oraImm v => exact oraImm v
  case oraZp b => exact oraZp b
  case oraZpX b => exact oraZpX b
  case oraAbs a => exact oraAbs a
  case oraAbsX a => exact oraAbsX a
  case oraAbsY a => exact oraAbsY a
  case oraIndX b => exact oraIndX b
  case oraIndY b => exact oraIndY b
  case eorImm v => exact eorImm v
  case eorZp b => exact eorZp b
  case eorZpX b => exact eorZpX b
  case eorAbs a => exact eorAbs a
  case eorAbsX a => exact eorAbsX a
  case eorAbsY a => exact eorAbsY a
  case eorIndX b => exact eorIndX b
  case eorIndY b => exact eorIndY b
  case cmpImm v => exact cmpImm v
  case cmpZp b => exact cmpZp b
  case cmpZpX b => exact cmpZpX b
  case cmpAbs a => exact cmpAbs a
  case cmpAbsX a => exact cmpAbsX a
  case cmpAbsY a => exact cmpAbsY a
  case cmpIndX b => exact cmpIndX b
  case cmpIndY b => exact cmpIndY b
  case cpxImm v => exact cpxImm v
  case cpxZp b => exact cpxZp b
  case cpxAbs a => exact cpxAbs a
  case cpyImm v => exact cpyImm v
  case cpyZp b => exact cpyZp b
  case cpyAbs a => exact cpyAbs a
  case bitZp b => exact bitZp b
  case bitAbs a => exact bitAbs a
  case aslAcc => exact aslAcc
  case aslZp b => exact aslZp b
  case aslZpX b => exact aslZpX b
  case aslAbs a => exact aslAbs a
  case aslAbsX a => exact aslAbsX a
  case lsrAcc => exact lsrAcc
  case lsrZp b => exact lsrZp b
  case lsrZpX b => exact lsrZpX b
  case lsrAbs a => exact lsrAbs a
  case lsrAbsX a => exact lsrAbsX a
  case rolAcc => exact rolAcc
  case rolZp b => exact rolZp b
  case rolZpX b => exact rolZpX b
  case rolAbs a => exact rolAbs a
  case rolAbsX a => exact rolAbsX a
  case rorAcc => exact rorAcc
  case rorZp b => exact rorZp b
  case rorZpX b => exact rorZpX b
  case rorAbs a => exact rorAbs a
  case rorAbsX a => exact rorAbsX a
  case incZp b => exact incZp b
  case incZpX b => exact incZpX b
  case incAbs a => exact incAbs a
  case incAbsX a => exact incAbsX a
  case decZp b => exact decZp b
  case decZpX b => exact decZpX b
  case decAbs a => exact decAbs a
  case decAbsX a => exact decAbsX a
  case inx => exact inx
  case iny => exact iny
  case dex => exact dex
  case dey => exact dey
  case tax => exact tax
  case tay => exact tay
  case txa => exact txa
  case tya => exact tya
  case tsx => exact tsx
  case txs => exact txs
  case clc => exact clc
  case sec => exact sec
  case cli => exact cli
  case sei => exact sei
  case cld => exact cld
  case sed => exact sed
  case clv => exact clv
  case pha => exact pha
  case pla => exact pla
  case php => exact php
  case plp => exact plp
  case nop => exact nop
  case bcc r => exact bcc r
  case bcs r => exact bcs r
  case beq r => exact beq r
  case bne r => exact bne r
  case bmi r => exact bmi r
  case bpl r => exact bpl r
  case bvc r => exact bvc r
  case bvs r => exact bvs r
  case jmpAbs a => exact jmpAbs a
  case jmpInd a => exact jmpInd a
  case jsr a => exact jsr a
  case rts => exact rts
  case brk => exact brk
  case rti => exact rti

end Sys2Proof.Laws.TableRow
end

