-- ==== Sys2Proof/Laws/Exec.lean ====
section
/-! SUPPORT. What `exec` does, said once: every instruction is its mnemonic's effect on its resolved operand,
between PC's advance and the end of the step. A proof about all instructions goes over the 56 mnemonics of
`effect` and not over `exec`. -/

namespace Sys2Proof.Machine

/-- The address of an operand that has one. -/
def Operand.ea : Operand → Addr
  | .addr ea => ea
  | _ => 0

/-- Is the instruction a branch whose condition holds? (R230 to R238) -/
def taken (m : Mnemonic) (s : State) : Bool :=
  match m with
  | .bcc => !s.flags.c
  | .bcs => s.flags.c
  | .beq => s.flags.z
  | .bne => !s.flags.z
  | .bmi => s.flags.n
  | .bpl => !s.flags.n
  | .bvc => !s.flags.v
  | .bvs => s.flags.v
  | _ => false

/-- The execute phase of a mnemonic on a resolved operand; `pcOp` is the address of the opcode byte (R114). -/
def effect (m : Mnemonic) (o : Operand) (pcOp : Addr) (s : State) : State :=
  match m with
  | .lda => lda o s
  | .ldx => ldx o s
  | .ldy => ldy o s
  | .sta => sta o.ea s
  | .stx => stx o.ea s
  | .sty => sty o.ea s
  | .adc => adc o s
  | .sbc => sbc o s
  | .and => and o s
  | .ora => ora o s
  | .eor => eor o s
  | .cmp => cmp o s
  | .cpx => cpx o s
  | .cpy => cpy o s
  | .bit => bit o s
  | .asl => asl o s
  | .lsr => lsr o s
  | .rol => rol o s
  | .ror => ror o s
  | .inc => inc o s
  | .dec => dec o s
  | .inx => inx s
  | .iny => iny s
  | .dex => dex s
  | .dey => dey s
  | .tax => tax s
  | .tay => tay s
  | .txa => txa s
  | .tya => tya s
  | .tsx => tsx s
  | .txs => txs s
  | .clc => clc s
  | .sec => sec s
  | .cli => cli s
  | .sei => sei s
  | .cld => cld s
  | .sed => sed s
  | .clv => clv s
  | .pha => pha s
  | .pla => pla s
  | .php => php s
  | .plp => plp s
  | .nop => nop s
  | .bcc => if !s.flags.c then s.setPc o.ea else s
  | .bcs => if s.flags.c then s.setPc o.ea else s
  | .beq => if s.flags.z then s.setPc o.ea else s
  | .bne => if !s.flags.z then s.setPc o.ea else s
  | .bmi => if s.flags.n then s.setPc o.ea else s
  | .bpl => if !s.flags.n then s.setPc o.ea else s
  | .bvc => if !s.flags.v then s.setPc o.ea else s
  | .bvs => if s.flags.v then s.setPc o.ea else s
  | .jmp => jmp o.ea s
  | .jsr => jsr o.ea s
  | .rts => rts s
  | .brk => brk pcOp s
  | .rti => rti s

/-- The state the execute phase sees. -/
def executed (i : Instr) (s : State) : State :=
  effect i.mnemonic (resolve i.mode (advance i.mode.tag s)) s.pc (advance i.mode.tag s)

/-- A branch meaning ends as its effect does. -/
theorem performBranch_eq (r : Byte) (cost : Nat) (cond : Flags → Bool) (s : State) :
    performBranch r cost cond s =
      .next (retire cost (cond s.flags)
        (if cond s.flags then
          (advance .relative s).setPc (effectiveAddress (.relative r) (advance .relative s))
        else advance .relative s)) := by
  cases h : cond s.flags <;> simp [performBranch, h]

/-- Every instruction answers a next state, and this one. -/
theorem exec_eq (i : Instr) (s : State) :
    exec i s = .next (retire i.baseCycles (taken i.mnemonic s) (executed i s)) := by
  rw [(Laws.TableRow.all i).2]
  cases i <;> first
    | rfl
    | exact performBranch_eq _ _ (fun f => !f.c) _
    | exact performBranch_eq _ _ (fun f => !f.z) _
    | exact performBranch_eq _ _ (fun f => !f.n) _
    | exact performBranch_eq _ _ (fun f => !f.v) _
    | exact performBranch_eq _ _ (fun f => f.c) _
    | exact performBranch_eq _ _ (fun f => f.z) _
    | exact performBranch_eq _ _ (fun f => f.n) _
    | exact performBranch_eq _ _ (fun f => f.v) _

theorem exec_next_iff (i : Instr) (s t : State) :
    exec i s = .next t ↔ t = retire i.baseCycles (taken i.mnemonic s) (executed i s) := by
  rw [exec_eq]
  constructor
  · intro h; cases h; rfl
  · rintro rfl; rfl

/-- An execute phase that leaves no fault: its state, with the cost counted (R117). -/
theorem exec_of_no_fault {i : Instr} {s u : State} (he : executed i s = u) (hu : u.fault = .none) :
    exec i s = .next { u with
      cycleCount := u.cfg.wrapCycles (u.cycleCount + (i.baseCycles + bitNat (taken i.mnemonic s))) } := by
  rw [exec_eq, he, retire_of_none _ _ _ hu]

/-- An execute phase that leaves a fault: the same, and the engine is halted (R118). -/
theorem exec_of_fault {i : Instr} {s u : State} (he : executed i s = u) (hu : u.fault = .outOfBoundsWrite) :
    exec i s = .next { u with
      cycleCount := u.cfg.wrapCycles (u.cycleCount + (i.baseCycles + bitNat (taken i.mnemonic s)))
      running := false } := by
  rw [exec_eq, he, retire_of_fault _ _ _ hu]

end Sys2Proof.Machine
end

