-- ==== Sys2Proof/Laws/Step.lean ====
section
/-! SUPPORT. What a step can be: a decoded instruction's meaning, or the step of an unrecognised byte. -/

namespace Sys2Proof.Machine

variable (s : State)

theorem fetchBytes_eq : fetchBytes s =
    memRead s.pc.toNat s :: (List.range s.cfg.bus.bytes).map fun k => memRead (s.pc.toNat + (k + 1)) s := by
  simp [fetchBytes, List.range_succ_eq_map, List.map_map]

@[simp] theorem fetchBytes_length : (fetchBytes s).length = s.cfg.bus.bytes + 1 := by simp [fetchBytes]

/-- Bytes as many as the longest instruction has never end too early (R83). -/
theorem build_complete (bus : BusWidth) (f : Format) (rest : List Byte) (h : rest.length = bus.bytes) :
    f.build bus rest ≠ .error .incomplete ∧ ∀ op, f.build bus rest ≠ .error (.unrecognised op) := by
  cases f with
  | f0 i => simp [Format.build]
  | f1 mk =>
    cases rest with
    | nil => cases bus <;> simp [BusWidth.bytes] at h
    | cons b rest => simp [Format.build]
  | fa mk => simp [Format.build, h]

/-- What the bytes at PC decode to: an instruction, or the opcode byte has no row. -/
theorem decode_fetch :
    (∃ i rest, decode s.cfg.bus (fetchBytes s) = .ok (i, rest)) ∨
    (decode s.cfg.bus (fetchBytes s) = .error (.unrecognised (memRead s.pc.toNat s)) ∧
      tableLookup (memRead s.pc.toNat s) = none) := by
  rw [fetchBytes_eq, decode]
  cases hl : tableLookup (memRead s.pc.toNat s) with
  | none => exact .inr ⟨rfl, rfl⟩
  | some row =>
    refine .inl ?_
    have hb := build_complete s.cfg.bus row.format
      ((List.range s.cfg.bus.bytes).map fun k => memRead (s.pc.toNat + (k + 1)) s) (by simp)
    show ∃ i rest, row.format.build _ _ = .ok (i, rest)
    cases hr : row.format.build s.cfg.bus
        ((List.range s.cfg.bus.bytes).map fun k => memRead (s.pc.toNat + (k + 1)) s) with
    | ok r => exact ⟨r.1, r.2, rfl⟩
    | error e =>
      cases e with
      | incomplete => exact absurd hr hb.1
      | unrecognised op => exact absurd hr (hb.2 op)

/-- A running engine runs the instruction its bytes decode to, or goes past an unrecognised byte (R112, R116). -/
theorem step_running (h : s.running = true) :
    (∃ i rest, decode s.cfg.bus (fetchBytes s) = .ok (i, rest) ∧ step s = exec i s) ∨
    (tableLookup (memRead s.pc.toNat s) = none ∧ step s = .next (unrecognised s)) := by
  rcases decode_fetch s with ⟨i, rest, hd⟩ | ⟨hd, hn⟩
  · exact .inl ⟨i, rest, hd, by simp [step, h, hd]⟩
  · exact .inr ⟨hn, by simp [step, h, hd, decodeMiss]⟩

theorem step_halted (h : s.running = false) : step s = .refused .halted := by simp [step, h]

/-- The inversion of `step`. -/
theorem step_next {t : State} (h : step s = .next t) :
    s.running = true ∧ ((∃ i, exec i s = .next t) ∨ t = unrecognised s) := by
  cases hr : s.running with
  | false => rw [step_halted s hr] at h; cases h
  | true =>
    refine ⟨rfl, ?_⟩
    rcases step_running s hr with ⟨i, rest, -, hs⟩ | ⟨-, hs⟩ <;> rw [hs] at h
    · exact .inl ⟨i, h⟩
    · cases h; exact .inr rfl

end Sys2Proof.Machine
end

