-- ==== Sys2Proof/Laws/Effect.lean ====
section
/-! SUPPORT. What the execute phase of every mnemonic leaves alone, and what it keeps. -/

namespace Sys2Proof.Machine

variable (m : Mnemonic) (o : Operand) (p : Addr) (s : State)

/-- No execute phase changes a parameter (R21). -/
@[simp] theorem effect_cfg : (effect m o p s).cfg = s.cfg := by
  cases m <;> simp [
    effect, lda, ldx, ldy, sta, stx, sty, adc, sbc, and, ora, eor, cmp, cpx, cpy, bit, asl, lsr, rol, ror, inc, dec,
    inx, iny, dex, dey, tax, tay, txa, tya, tsx, txs, clc, sec, cli, sei, cld, sed, clv, 
    pha, pla, php, plp, nop, jmp, jsr, rts, brk, rti, addToA, logicToA, shiftInto,
    returnFromBreak, pushAddr, popAddr_eq]
  all_goals split <;> rfl

/-- No execute phase counts cycles (R117). -/
@[simp] theorem effect_cycleCount : (effect m o p s).cycleCount = s.cycleCount := by
  cases m <;> simp [
    effect, lda, ldx, ldy, sta, stx, sty, adc, sbc, and, ora, eor, cmp, cpx, cpy, bit, asl, lsr, rol, ror, inc, dec,
    inx, iny, dex, dey, tax, tay, txa, tya, tsx, txs, clc, sec, cli, sei, cld, sed, clv, 
    pha, pla, php, plp, nop, jmp, jsr, rts, brk, rti, addToA, logicToA, shiftInto,
    returnFromBreak, pushAddr, popAddr_eq]
  all_goals split <;> rfl

/-- `running` is cleared by BRK alone, and set by nothing (R36). -/
theorem effect_running :
    (effect m o p s).running = (s.running && !(decide (m = .brk) && s.cfg.brkHalts)) := by
  cases m <;> simp [
    effect, lda, ldx, ldy, sta, stx, sty, adc, sbc, and, ora, eor, cmp, cpx, cpy, bit, asl, lsr, rol, ror, inc, dec,
    inx, iny, dex, dey, tax, tay, txa, tya, tsx, txs, clc, sec, cli, sei, cld, sed, clv, 
    pha, pla, php, plp, nop, jmp, jsr, rts, brk, rti, addToA, logicToA, shiftInto,
    returnFromBreak, pushAddr, popAddr_eq]
  all_goals split <;> rfl

/-- An execute phase never clears a fault (R37). -/
theorem effect_fault (h : s.fault = .outOfBoundsWrite) : (effect m o p s).fault = .outOfBoundsWrite := by
  cases m <;> simp [
    effect, lda, ldx, ldy, sta, stx, sty, adc, sbc, and, ora, eor, cmp, cpx, cpy, bit, asl, lsr, rol, ror, inc, dec,
    inx, iny, dex, dey, tax, tay, txa, tya, tsx, txs, clc, sec, cli, sei, cld, sed, clv, 
    pha, pla, php, plp, nop, jmp, jsr, rts, brk, rti, addToA, logicToA, shiftInto,
    returnFromBreak, pushAddr, popAddr_eq, writeBack, memWrite_fault, takeBreak_eq, pushAll_fault, h]
  all_goals first
    | (cases o <;> simp [memWrite_fault, h])
    | (split <;> simp [h])

/-- Memory changes by `memWrite` alone: what every write keeps, the execute phase keeps (R56, D5). -/
theorem effect_mem_induct (P : Memory → Prop)
    (hP : ∀ (t : State) (a : Nat) (v : Byte), t.cfg = s.cfg → P t.mem → P (memWrite a v t).mem) (h : P s.mem) :
    P (effect m o p s).mem := by
  have hpush : ∀ (vs : List Byte) (t : State), t.cfg = s.cfg → P t.mem → P (pushAll vs t).mem := by
    intro vs
    induction vs with
    | nil => exact fun _ _ h => h
    | cons v vs ih => exact fun t hc h => ih (push v t) (by simpa using hc) (by simpa using hP t _ v hc h)
  have hwb : ∀ (v : Byte), P (writeBack o v s).mem := by
    intro v; cases o with
    | addr ea => exact hP s _ v rfl h
    | none => exact h
    | acc => exact h
    | imm w => exact h
  have h1 : ∀ v, P (push v s).mem := fun v => by simpa using hP s _ v rfl h
  cases m <;> simp [effect,
    lda, ldx, ldy, sta, stx, sty, adc, sbc, and, ora, eor, cmp, cpx, cpy, bit, asl, lsr, rol, ror, inc, dec, inx, iny, dex,
    dey, tax, tay, txa, tya, tsx, txs, clc, sec, cli, sei, cld, sed, clv, pha, pla, php, plp, nop, jmp, jsr, rts, brk, rti,
    addToA, logicToA, shiftInto, returnFromBreak, pushAddr, popAddr_eq, takeBreak_eq]
  all_goals first
    | exact h
    | exact hwb _
    | exact hP s _ _ rfl h
    | exact hpush _ s rfl h
    | (split <;> exact h)

theorem effect_wf (h : Memory.wf s.mem) : Memory.wf (effect m o p s).mem :=
  effect_mem_induct m o p s _ (fun t a v _ ht => memWrite_wf t a v ht) h

theorem effect_inSpace (h : Memory.inSpace s.cfg.bus s.mem) : Memory.inSpace s.cfg.bus (effect m o p s).mem :=
  effect_mem_induct m o p s _ (fun t a v hc ht => by rw [← hc] at ht ⊢; exact memWrite_inSpace t a v ht) h

/-- The mnemonics that write PC in their execute phase. -/
def setsPc : Mnemonic → Bool
  | .bcc | .bcs | .beq | .bne | .bmi | .bpl | .bvc | .bvs | .jmp | .jsr | .rts | .brk | .rti => true
  | _ => false

/-- The others leave it (R29). -/
theorem effect_pc (h : setsPc m = false) : (effect m o p s).pc = s.pc := by
  cases m <;> simp [setsPc] at h <;> simp [effect,
    lda, ldx, ldy, sta, stx, sty, adc, sbc, and, ora, eor, cmp, cpx, cpy, bit, asl, lsr, rol, ror, inc, dec, inx, iny, dex,
    dey, tax, tay, txa, tya, tsx, txs, clc, sec, cli, sei, cld, sed, clv, pha, pla, php, plp, nop,
    addToA, logicToA, shiftInto]

/-- PC stays an address of the bus (R27). -/
theorem effect_pc_lt (ho : o.ea.toNat < s.cfg.bus.size) (h : s.pc.toNat < s.cfg.bus.size) :
    (effect m o p s).pc.toNat < s.cfg.bus.size := by
  by_cases hm : setsPc m = true
  · cases m <;> simp [setsPc] at hm
    all_goals simp [effect, jmp, jsr, rts, brk, rti, returnFromBreak, popAddr_eq, takeBreak_eq, readAddr,
      Memory.readAddr, powerOff, Nat.mod_lt _ s.cfg.bus.size_pos]
    all_goals first
      | exact ho
      | (split <;> first | exact ho | exact h | simp [Nat.mod_lt _ s.cfg.bus.size_pos])
  · rw [effect_pc m o p s (by simpa using hm)]; exact h

theorem resolve_ea_lt (a : AddressingMode) : (resolve a s).ea.toNat < s.cfg.bus.size := by
  cases a with
  | memory m => exact effectiveAddress_lt s m
  | implied => simpa [resolve, Operand.ea] using s.cfg.bus.size_pos
  | accumulator => simpa [resolve, Operand.ea] using s.cfg.bus.size_pos
  | immediate v => simpa [resolve, Operand.ea] using s.cfg.bus.size_pos

end Sys2Proof.Machine
end

