-- ==== Sys2Proof/Laws/Table.lean ====
section
/-! SUPPORT. The opcode table the other way round: what every row's format makes, and what a decoded instruction is. -/

namespace Sys2Proof

/-- What a row's format makes carries the row's opcode, and the operand bytes it was made from. -/
def OpcodeRow.Sound (r : OpcodeRow) : Prop :=
  match r.format with
  | .f0 i => i.opcode = r.opcode ∧ ∀ bus, i.wellFormed bus = true ∧ i.mode.operandBytes bus = []
  | .f1 make => ∀ b, (make b).opcode = r.opcode ∧
      ∀ bus, (make b).wellFormed bus = true ∧ (make b).mode.operandBytes bus = [b]
  | .fa make => ∀ a, (make a).opcode = r.opcode ∧
      ∀ bus, ((make a).wellFormed bus = true ↔ a.toNat < bus.size) ∧
        (make a).mode.operandBytes bus = leBytes bus.bytes a.toNat

/-- Every row of the table is sound. -/
theorem opcodeTable_sound : ∀ r ∈ opcodeTable, r.Sound := by
  simp only [opcodeTable, List.forall_mem_append]
  refine ⟨⟨⟨⟨⟨⟨⟨⟨⟨⟨⟨⟨⟨⟨⟨?_, ?_⟩, ?_⟩, ?_⟩, ?_⟩, ?_⟩, ?_⟩, ?_⟩, ?_⟩, ?_⟩, ?_⟩, ?_⟩, ?_⟩, ?_⟩, ?_⟩, ?_⟩
  all_goals
    simp only [opcodeRows0, opcodeRows1, opcodeRows2, opcodeRows3, opcodeRows4, opcodeRows5, opcodeRows6, opcodeRows7,
      opcodeRows8, opcodeRows9, opcodeRowsA, opcodeRowsB, opcodeRowsC, opcodeRowsD, opcodeRowsE, opcodeRowsF,
      List.forall_mem_cons, List.not_mem_nil, false_implies, implies_true, and_true]
    repeat' with_reducible refine And.intro ?_ ?_
  all_goals first
    | exact ⟨rfl, fun _ => ⟨rfl, rfl⟩⟩
    | exact fun _ => ⟨rfl, fun _ => ⟨rfl, rfl⟩⟩
    | exact fun _ => ⟨rfl, fun _ => ⟨decide_eq_true_iff, rfl⟩⟩

/-- The opcode names its row: no two rows share one, and a row of the table is found under its opcode. -/
theorem tableLookup_of_mem {r : OpcodeRow} (h : r ∈ opcodeTable) : tableLookup r.opcode = some r := by
  have hp : opcodeTable.Pairwise (fun a b => a.opcode ≠ b.opcode) := by
    rw [← List.pairwise_map (R := (· ≠ ·))]
    show (opcodeTable.map (·.opcode)).Pairwise (· ≠ ·)
    decide +kernel
  unfold tableLookup
  generalize opcodeTable = l at h hp
  induction l with
  | nil => simp at h
  | cons x l ih =>
    obtain ⟨hx, hp⟩ := List.pairwise_cons.1 hp
    rcases List.mem_cons.1 h with rfl | h
    · simp
    · rw [List.find?_cons_of_neg (by simpa using hx _ h)]
      exact ih h hp

/-- Every row has its instruction. -/
theorem opcodeTable_inhabited {r : OpcodeRow} (h : r ∈ opcodeTable) :
    ∃ i : Instr, i.opcode = r.opcode ∧ i.mnemonic = r.mnemonic ∧ i.mode.tag = r.mode ∧ i.baseCycles = r.cycles := by
  have hs := opcodeTable_sound r h
  have hl := tableLookup_of_mem h
  have key : ∀ i : Instr, i.opcode = r.opcode →
      i.opcode = r.opcode ∧ i.mnemonic = r.mnemonic ∧ i.mode.tag = r.mode ∧ i.baseCycles = r.cycles := by
    intro i hi
    obtain ⟨f, hf, -⟩ := (Laws.TableRow.all i).1
    rw [hi, hl] at hf
    have hr := Option.some.inj hf
    exact ⟨hi, by rw [hr], by rw [hr], by simp [Instr.baseCycles, hi, hl]⟩
  unfold OpcodeRow.Sound at hs
  split at hs
  · exact ⟨_, key _ hs.1⟩
  · exact ⟨_, key _ (hs 0).1⟩
  · exact ⟨_, key _ (hs 0).1⟩

end Sys2Proof
end

