-- ==== Sys2Proof/Tests/Slice0.lean ====
section
/-! SUPPORT. The model's own tests: every opcode's decoding, ill-formed terms, the spec's single-step vectors
(95_test_vectors.md), and the witnesses of the obligations' hypotheses. -/

namespace Sys2Proof.Tests

open Sys2Proof.Machine

/-! ## Helpers -/

/-- The wide-bus parameters of 95_test_vectors.md section 2.8; its OPEN values chosen within D3 and D9. -/
def Config.wide : Config :=
  { Config.standard with
    bus := .bits24
    ramEnd := 0x7FFFFF
    sysBase := 0xFFFF00
    writable := [(0, 0x7FFFFF)]
    resetVec := 0xFFFFFA
    brkVec := 0xFFFFFD }

/-- Memory holding the listed bytes. -/
def memoryOf (cells : List (Nat × Byte)) : Memory :=
  cells.foldl (fun m c => Memory.write m c.1 c.2) Memory.empty

/-- The start state of a vector: instruction bytes at PC, some memory bytes, everything else at the default
95_test_vectors.md section 0 names. -/
def launch (cfg : Config) (pc : Addr) (code : List Byte) (cells : List (Nat × Byte)) : State :=
  hostWriteAll code pc.toNat
    { State.reset with cfg := cfg, pc := pc, mem := memoryOf cells }

/-- The step of the first state gives exactly the second. -/
abbrev stepGives (s t : State) : Prop :=
  (match step s with
    | .next t' => decide (t' = t)
    | _ => false) = true

/-- Bytes decode to the instruction and nothing is left over (16-bit bus). -/
abbrev decodesTo (bytes : List Byte) (i : Instr) : Prop :=
  (match decode .bits16 bytes with
    | .ok (j, rest) => decide (j = i) && rest.isEmpty
    | .error _ => false) = true

/-! ## Decoding: words written out from 30_encoding.md R95 -/

theorem test_decode_lda :
    decodesTo [0xA9, 0xA5] (.ldaImm 0xA5) ∧
    decodesTo [0xA5, 0xA5] (.ldaZp 0xA5) ∧
    decodesTo [0xB5, 0xA5] (.ldaZpX 0xA5) ∧
    decodesTo [0xAD, 0x34, 0x12] (.ldaAbs 0x1234) ∧
    decodesTo [0xBD, 0x34, 0x12] (.ldaAbsX 0x1234) ∧
    decodesTo [0xB9, 0x34, 0x12] (.ldaAbsY 0x1234) ∧
    decodesTo [0xA1, 0xA5] (.ldaIndX 0xA5) ∧
    decodesTo [0xB1, 0xA5] (.ldaIndY 0xA5) := by decide

theorem test_decode_ldx :
    decodesTo [0xA2, 0xA5] (.ldxImm 0xA5) ∧
    decodesTo [0xA6, 0xA5] (.ldxZp 0xA5) ∧
    decodesTo [0xB6, 0xA5] (.ldxZpY 0xA5) ∧
    decodesTo [0xAE, 0x34, 0x12] (.ldxAbs 0x1234) ∧
    decodesTo [0xBE, 0x34, 0x12] (.ldxAbsY 0x1234) := by decide

theorem test_decode_ldy :
    decodesTo [0xA0, 0xA5] (.ldyImm 0xA5) ∧
    decodesTo [0xA4, 0xA5] (.ldyZp 0xA5) ∧
    decodesTo [0xB4, 0xA5] (.ldyZpX 0xA5) ∧
    decodesTo [0xAC, 0x34, 0x12] (.ldyAbs 0x1234) ∧
    decodesTo [0xBC, 0x34, 0x12] (.ldyAbsX 0x1234) := by decide

theorem test_decode_sta :
    decodesTo [0x85, 0xA5] (.staZp 0xA5) ∧
    decodesTo [0x95, 0xA5] (.staZpX 0xA5) ∧
    decodesTo [0x8D, 0x34, 0x12] (.staAbs 0x1234) ∧
    decodesTo [0x9D, 0x34, 0x12] (.staAbsX 0x1234) ∧
    decodesTo [0x99, 0x34, 0x12] (.staAbsY 0x1234) ∧
    decodesTo [0x81, 0xA5] (.staIndX 0xA5) ∧
    decodesTo [0x91, 0xA5] (.staIndY 0xA5) := by decide

theorem test_decode_stx :
    decodesTo [0x86, 0xA5] (.stxZp 0xA5) ∧
    decodesTo [0x96, 0xA5] (.stxZpY 0xA5) ∧
    decodesTo [0x8E, 0x34, 0x12] (.stxAbs 0x1234) := by decide

theorem test_decode_sty :
    decodesTo [0x84, 0xA5] (.styZp 0xA5) ∧
    decodesTo [0x94, 0xA5] (.styZpX 0xA5) ∧
    decodesTo [0x8C, 0x34, 0x12] (.styAbs 0x1234) := by decide

theorem test_decode_adc :
    decodesTo [0x69, 0xA5] (.adcImm 0xA5) ∧
    decodesTo [0x65, 0xA5] (.adcZp 0xA5) ∧
    decodesTo [0x75, 0xA5] (.adcZpX 0xA5) ∧
    decodesTo [0x6D, 0x34, 0x12] (.adcAbs 0x1234) ∧
    decodesTo [0x7D, 0x34, 0x12] (.adcAbsX 0x1234) ∧
    decodesTo [0x79, 0x34, 0x12] (.adcAbsY 0x1234) ∧
    decodesTo [0x61, 0xA5] (.adcIndX 0xA5) ∧
    decodesTo [0x71, 0xA5] (.adcIndY 0xA5) := by decide

theorem test_decode_sbc :
    decodesTo [0xE9, 0xA5] (.sbcImm 0xA5) ∧
    decodesTo [0xE5, 0xA5] (.sbcZp 0xA5) ∧
    decodesTo [0xF5, 0xA5] (.sbcZpX 0xA5) ∧
    decodesTo [0xED, 0x34, 0x12] (.sbcAbs 0x1234) ∧
    decodesTo [0xFD, 0x34, 0x12] (.sbcAbsX 0x1234) ∧
    decodesTo [0xF9, 0x34, 0x12] (.sbcAbsY 0x1234) ∧
    decodesTo [0xE1, 0xA5] (.sbcIndX 0xA5) ∧
    decodesTo [0xF1, 0xA5] (.sbcIndY 0xA5) := by decide

theorem test_decode_and :
    decodesTo [0x29, 0xA5] (.andImm 0xA5) ∧
    decodesTo [0x25, 0xA5] (.andZp 0xA5) ∧
    decodesTo [0x35, 0xA5] (.andZpX 0xA5) ∧
    decodesTo [0x2D, 0x34, 0x12] (.andAbs 0x1234) ∧
    decodesTo [0x3D, 0x34, 0x12] (.andAbsX 0x1234) ∧
    decodesTo [0x39, 0x34, 0x12] (.andAbsY 0x1234) ∧
    decodesTo [0x21, 0xA5] (.andIndX 0xA5) ∧
    decodesTo [0x31, 0xA5] (.andIndY 0xA5) := by decide

theorem test_decode_ora :
    decodesTo [0x09, 0xA5] (.oraImm 0xA5) ∧
    decodesTo [0x05, 0xA5] (.oraZp 0xA5) ∧
    decodesTo [0x15, 0xA5] (.oraZpX 0xA5) ∧
    decodesTo [0x0D, 0x34, 0x12] (.oraAbs 0x1234) ∧
    decodesTo [0x1D, 0x34, 0x12] (.oraAbsX 0x1234) ∧
    decodesTo [0x19, 0x34, 0x12] (.oraAbsY 0x1234) ∧
    decodesTo [0x01, 0xA5] (.oraIndX 0xA5) ∧
    decodesTo [0x11, 0xA5] (.oraIndY 0xA5) := by decide

theorem test_decode_eor :
    decodesTo [0x49, 0xA5] (.eorImm 0xA5) ∧
    decodesTo [0x45, 0xA5] (.eorZp 0xA5) ∧
    decodesTo [0x55, 0xA5] (.eorZpX 0xA5) ∧
    decodesTo [0x4D, 0x34, 0x12] (.eorAbs 0x1234) ∧
    decodesTo [0x5D, 0x34, 0x12] (.eorAbsX 0x1234) ∧
    decodesTo [0x59, 0x34, 0x12] (.eorAbsY 0x1234) ∧
    decodesTo [0x41, 0xA5] (.eorIndX 0xA5) ∧
    decodesTo [0x51, 0xA5] (.eorIndY 0xA5) := by decide

theorem test_decode_cmp :
    decodesTo [0xC9, 0xA5] (.cmpImm 0xA5) ∧
    decodesTo [0xC5, 0xA5] (.cmpZp 0xA5) ∧
    decodesTo [0xD5, 0xA5] (.cmpZpX 0xA5) ∧
    decodesTo [0xCD, 0x34, 0x12] (.cmpAbs 0x1234) ∧
    decodesTo [0xDD, 0x34, 0x12] (.cmpAbsX 0x1234) ∧
    decodesTo [0xD9, 0x34, 0x12] (.cmpAbsY 0x1234) ∧
    decodesTo [0xC1, 0xA5] (.cmpIndX 0xA5) ∧
    decodesTo [0xD1, 0xA5] (.cmpIndY 0xA5) := by decide

theorem test_decode_cpx :
    decodesTo [0xE0, 0xA5] (.cpxImm 0xA5) ∧
    decodesTo [0xE4, 0xA5] (.cpxZp 0xA5) ∧
    decodesTo [0xEC, 0x34, 0x12] (.cpxAbs 0x1234) := by decide

theorem test_decode_cpy :
    decodesTo [0xC0, 0xA5] (.cpyImm 0xA5) ∧
    decodesTo [0xC4, 0xA5] (.cpyZp 0xA5) ∧
    decodesTo [0xCC, 0x34, 0x12] (.cpyAbs 0x1234) := by decide

theorem test_decode_bit :
    decodesTo [0x24, 0xA5] (.bitZp 0xA5) ∧
    decodesTo [0x2C, 0x34, 0x12] (.bitAbs 0x1234) := by decide

theorem test_decode_asl :
    decodesTo [0x0A] .aslAcc ∧
    decodesTo [0x06, 0xA5] (.aslZp 0xA5) ∧
    decodesTo [0x16, 0xA5] (.aslZpX 0xA5) ∧
    decodesTo [0x0E, 0x34, 0x12] (.aslAbs 0x1234) ∧
    decodesTo [0x1E, 0x34, 0x12] (.aslAbsX 0x1234) := by decide

theorem test_decode_lsr :
    decodesTo [0x4A] .lsrAcc ∧
    decodesTo [0x46, 0xA5] (.lsrZp 0xA5) ∧
    decodesTo [0x56, 0xA5] (.lsrZpX 0xA5) ∧
    decodesTo [0x4E, 0x34, 0x12] (.lsrAbs 0x1234) ∧
    decodesTo [0x5E, 0x34, 0x12] (.lsrAbsX 0x1234) := by decide

theorem test_decode_rol :
    decodesTo [0x2A] .rolAcc ∧
    decodesTo [0x26, 0xA5] (.rolZp 0xA5) ∧
    decodesTo [0x36, 0xA5] (.rolZpX 0xA5) ∧
    decodesTo [0x2E, 0x34, 0x12] (.rolAbs 0x1234) ∧
    decodesTo [0x3E, 0x34, 0x12] (.rolAbsX 0x1234) := by decide

theorem test_decode_ror :
    decodesTo [0x6A] .rorAcc ∧
    decodesTo [0x66, 0xA5] (.rorZp 0xA5) ∧
    decodesTo [0x76, 0xA5] (.rorZpX 0xA5) ∧
    decodesTo [0x6E, 0x34, 0x12] (.rorAbs 0x1234) ∧
    decodesTo [0x7E, 0x34, 0x12] (.rorAbsX 0x1234) := by decide

theorem test_decode_inc :
    decodesTo [0xE6, 0xA5] (.incZp 0xA5) ∧
    decodesTo [0xF6, 0xA5] (.incZpX 0xA5) ∧
    decodesTo [0xEE, 0x34, 0x12] (.incAbs 0x1234) ∧
    decodesTo [0xFE, 0x34, 0x12] (.incAbsX 0x1234) := by decide

theorem test_decode_dec :
    decodesTo [0xC6, 0xA5] (.decZp 0xA5) ∧
    decodesTo [0xD6, 0xA5] (.decZpX 0xA5) ∧
    decodesTo [0xCE, 0x34, 0x12] (.decAbs 0x1234) ∧
    decodesTo [0xDE, 0x34, 0x12] (.decAbsX 0x1234) := by decide

theorem test_decode_inx :
    decodesTo [0xE8] .inx := by decide

theorem test_decode_iny :
    decodesTo [0xC8] .iny := by decide

theorem test_decode_dex :
    decodesTo [0xCA] .dex := by decide

theorem test_decode_dey :
    decodesTo [0x88] .dey := by decide

theorem test_decode_tax :
    decodesTo [0xAA] .tax := by decide

theorem test_decode_tay :
    decodesTo [0xA8] .tay := by decide

theorem test_decode_txa :
    decodesTo [0x8A] .txa := by decide

theorem test_decode_tya :
    decodesTo [0x98] .tya := by decide

theorem test_decode_tsx :
    decodesTo [0xBA] .tsx := by decide

theorem test_decode_txs :
    decodesTo [0x9A] .txs := by decide

theorem test_decode_clc :
    decodesTo [0x18] .clc := by decide

theorem test_decode_sec :
    decodesTo [0x38] .sec := by decide

theorem test_decode_cli :
    decodesTo [0x58] .cli := by decide

theorem test_decode_sei :
    decodesTo [0x78] .sei := by decide

theorem test_decode_cld :
    decodesTo [0xD8] .cld := by decide

theorem test_decode_sed :
    decodesTo [0xF8] .sed := by decide

theorem test_decode_clv :
    decodesTo [0xB8] .clv := by decide

theorem test_decode_pha :
    decodesTo [0x48] .pha := by decide

theorem test_decode_pla :
    decodesTo [0x68] .pla := by decide

theorem test_decode_php :
    decodesTo [0x08] .php := by decide

theorem test_decode_plp :
    decodesTo [0x28] .plp := by decide

theorem test_decode_nop :
    decodesTo [0xEA] .nop := by decide

theorem test_decode_bcc :
    decodesTo [0x90, 0xA5] (.bcc 0xA5) := by decide

theorem test_decode_bcs :
    decodesTo [0xB0, 0xA5] (.bcs 0xA5) := by decide

theorem test_decode_beq :
    decodesTo [0xF0, 0xA5] (.beq 0xA5) := by decide

theorem test_decode_bne :
    decodesTo [0xD0, 0xA5] (.bne 0xA5) := by decide

theorem test_decode_bmi :
    decodesTo [0x30, 0xA5] (.bmi 0xA5) := by decide

theorem test_decode_bpl :
    decodesTo [0x10, 0xA5] (.bpl 0xA5) := by decide

theorem test_decode_bvc :
    decodesTo [0x50, 0xA5] (.bvc 0xA5) := by decide

theorem test_decode_bvs :
    decodesTo [0x70, 0xA5] (.bvs 0xA5) := by decide

theorem test_decode_jmp :
    decodesTo [0x4C, 0x34, 0x12] (.jmpAbs 0x1234) ∧
    decodesTo [0x6C, 0x34, 0x12] (.jmpInd 0x1234) := by decide

theorem test_decode_jsr :
    decodesTo [0x20, 0x34, 0x12] (.jsr 0x1234) := by decide

theorem test_decode_rts :
    decodesTo [0x60] .rts := by decide

theorem test_decode_brk :
    decodesTo [0x00] .brk := by decide

theorem test_decode_rti :
    decodesTo [0x40] .rti := by decide

/-- V2 (R136). -/
theorem test_ldaZp_V2 :
    let s := launch Config.standard 0x8000 [0xA5, 0x10] [(0x0010, 0x7F)]
    stepGives s { s with a := 0x7F, pc := 0x8002, cycleCount := 3 } := by decide

/-- V3 (R137): zp,X wraps in page 0. -/
theorem test_ldaZpX_V3 :
    let s := { launch Config.standard 0x8000 [0xB5, 0xFE] [(0x0003, 0x33)] with x := 0x05 }
    stepGives s { s with a := 0x33, pc := 0x8002, cycleCount := 4 } := by decide

/-- V4 (R138): zp,Y wraps to 0x00. -/
theorem test_ldxZpY_V4 :
    let s := { launch Config.standard 0x8000 [0xB6, 0xFF] [(0x0000, 0x44)] with y := 0x01 }
    stepGives s { s with x := 0x44, pc := 0x8002, cycleCount := 4 } := by decide

/-- V5 (R139). -/
theorem test_ldaAbs_V5 :
    let s := launch Config.standard 0x8000 [0xAD, 0x34, 0x12] [(0x1234, 0x81)]
    stepGives s { s with a := 0x81, pc := 0x8003, flags := { Flags.clear with n := true }, cycleCount := 4 } := by decide

/-- V7 (R140): wraps at top of space. -/
theorem test_ldaAbsX_V7 :
    let s := { launch Config.standard 0x8000 [0xBD, 0xFE, 0xFF] [(0x0003, 0x02)] with x := 0x05 }
    stepGives s { s with a := 0x02, pc := 0x8003, cycleCount := 4 } := by decide

/-- V8 (R141). -/
theorem test_ldaAbsY_V8 :
    let s := { launch Config.standard 0x8000 [0xB9, 0xF0, 0x20] [(0x2110, 0x03)] with y := 0x20 }
    stepGives s { s with a := 0x03, pc := 0x8003, cycleCount := 4 } := by decide

/-- V9 (R142): no JMP ($xxFF) page-wrap defect (D19). -/
theorem test_jmpInd_V9 :
    let s := launch Config.standard 0x8000 [0x6C, 0xFF, 0x10] [(0x10FF, 0x00), (0x1100, 0x90), (0x1000, 0x70)]
    stepGives s { s with pc := 0x9000, cycleCount := 5 } := by decide

/-- V10 (R143). -/
theorem test_ldaIndX_V10 :
    let s := { launch Config.standard 0x8000 [0xA1, 0x20] [(0x0025, 0x00), (0x0026, 0x03), (0x0300, 0x5A)] with x := 0x05 }
    stepGives s { s with a := 0x5A, pc := 0x8002, cycleCount := 6 } := by decide

/-- V11 (R143): pointer bytes at 0xFF and 0x00 (D20). -/
theorem test_ldaIndX_V11 :
    let s := { launch Config.standard 0x8000 [0xA1, 0xFA] [(0x00FF, 0x10), (0x0000, 0x04), (0x0410, 0x66)] with x := 0x05 }
    stepGives s { s with a := 0x66, pc := 0x8002, cycleCount := 6 } := by decide

/-- V13 (R144): pointer wraps in page 0. -/
theorem test_ldaIndY_V13 :
    let s := { launch Config.standard 0x8000 [0xB1, 0xFF] [(0x00FF, 0x00), (0x0000, 0x05), (0x0501, 0x88)] with y := 0x01 }
    stepGives s { s with a := 0x88, pc := 0x8002, flags := { Flags.clear with n := true }, cycleCount := 5 } := by decide

/-- V14 (R145): Z=0: taken, 0x8012-4. -/
theorem test_bne_V14 :
    let s := launch Config.standard 0x8010 [0xD0, 0xFC] []
    stepGives s { s with pc := 0x800E, cycleCount := 3 } := by decide

/-- V16 (R145): REL_MODE=sign_magnitude: 0x84 = -4. -/
theorem test_bne_V16 :
    let s := launch { Config.standard with relMode := .signMagnitude } 0x8010 [0xD0, 0x84] []
    stepGives s { s with pc := 0x800E, cycleCount := 3 } := by decide

/-- V20 (R151): Z set, N cleared regardless of prior flags. -/
theorem test_ldaImm_V20 :
    let s := { launch Config.standard 0x8000 [0xA9, 0x00] [] with flags := { Flags.clear with n := true } }
    stepGives s { s with pc := 0x8002, flags := { Flags.clear with n := false, z := true }, cycleCount := 2 } := by decide

/-- V21 (R151). -/
theorem test_ldaImm_V21 :
    let s := { launch Config.standard 0x8000 [0xA9, 0x80] [] with flags := { Flags.clear with z := true } }
    stepGives s { s with a := 0x80, pc := 0x8002, flags := { Flags.clear with z := false, n := true }, cycleCount := 2 } := by decide

/-- V22 (R152). -/
theorem test_ldxImm_V22 :
    let s := { launch Config.standard 0x8000 [0xA2, 0x7F] [] with flags := { Flags.clear with n := true, z := true } }
    stepGives s { s with x := 0x7F, pc := 0x8002, flags := { Flags.clear with n := false, z := false }, cycleCount := 2 } := by decide

/-- V23 (R153). -/
theorem test_ldyImm_V23 :
    let s := launch Config.standard 0x8000 [0xA0, 0xFF] []
    stepGives s { s with y := 0xFF, pc := 0x8002, flags := { Flags.clear with n := true }, cycleCount := 2 } := by decide

/-- V24 (R154): store changes no flag. -/
theorem test_staAbs_V24 :
    let s := { launch Config.standard 0x8000 [0x8D, 0x00, 0x02] [] with a := 0x49, flags := { Flags.clear with z := true, n := true } }
    stepGives s { s with pc := 0x8003, cycleCount := 4, mem := Memory.write s.mem 0x0200 0x49 } := by decide

/-- V26 (R154): first ROM byte (the STA opcode itself): fault, M[8000] stays 8D. -/
theorem test_staAbs_V26 :
    let s := { launch Config.standard 0x8000 [0x8D, 0x00, 0x80] [] with a := 0x11 }
    stepGives s { s with pc := 0x8003, running := false, fault := .outOfBoundsWrite, cycleCount := 4 } := by decide

/-- V27 (R155): STX zp,Y wraps to 0x01. -/
theorem test_stxZpY_V27 :
    let s := { launch Config.standard 0x8000 [0x96, 0xFF] [] with x := 0x22, y := 0x02 }
    stepGives s { s with pc := 0x8002, cycleCount := 4, mem := Memory.write s.mem 0x0001 0x22 } := by decide

/-- V28 (R156): SYS page: fault. -/
theorem test_styAbs_V28 :
    let s := { launch Config.standard 0x8000 [0x8C, 0xFC, 0xFF] [] with y := 0x33 }
    stepGives s { s with pc := 0x8003, running := false, fault := .outOfBoundsWrite, cycleCount := 4 } := by decide

/-- V29 (R154): (zp),Y into ROM 0x8000: fault. -/
theorem test_staIndY_V29 :
    let s := { launch Config.standard 0x8000 [0x91, 0x40] [(0x0040, 0xFF), (0x0041, 0x7F)] with a := 0x9C, y := 0x01 }
    stepGives s { s with pc := 0x8002, running := false, fault := .outOfBoundsWrite, cycleCount := 6 } := by decide

/-- V30 (R161): source example. -/
theorem test_adcImm_V30 :
    let s := { launch Config.standard 0x8000 [0x69, 0x01] [] with a := 0x7F }
    stepGives s { s with a := 0x80, pc := 0x8002, flags := { Flags.clear with v := true, n := true }, cycleCount := 2 } := by decide

/-- V35 (R164): D=1 ignored: binary 0x0E, not BCD 0x14. -/
theorem test_adcImm_V35 :
    let s := { launch Config.standard 0x8000 [0x69, 0x05] [] with a := 0x09, flags := { Flags.clear with d := true } }
    stepGives s { s with a := 0x0E, pc := 0x8002, cycleCount := 2 } := by decide

/-- V39 (R162). -/
theorem test_sbcImm_V39 :
    let s := { launch Config.standard 0x8000 [0xE9, 0xB0] [] with a := 0x50, flags := { Flags.clear with c := true } }
    stepGives s { s with a := 0xA0, pc := 0x8002, flags := { Flags.clear with c := false, v := true, n := true }, cycleCount := 2 } := by decide

/-- V40 (R162): borrow in: 0-0-1. -/
theorem test_sbcImm_V40 :
    let s := { launch Config.standard 0x8000 [0xE9, 0x00] [] with a := 0x00, flags := { Flags.clear with c := false } }
    stepGives s { s with a := 0xFF, pc := 0x8002, flags := { Flags.clear with c := false, n := true }, cycleCount := 2 } := by decide

/-- V41 (R165). -/
theorem test_andImm_V41 :
    let s := { launch Config.standard 0x8000 [0x29, 0x0F] [] with a := 0xF0 }
    stepGives s { s with a := 0x00, pc := 0x8002, flags := { Flags.clear with z := true }, cycleCount := 2 } := by decide

/-- V42 (R166). -/
theorem test_oraImm_V42 :
    let s := { launch Config.standard 0x8000 [0x09, 0x80] [] with a := 0x01 }
    stepGives s { s with a := 0x81, pc := 0x8002, flags := { Flags.clear with n := true }, cycleCount := 2 } := by decide

/-- V43 (R167). -/
theorem test_eorImm_V43 :
    let s := { launch Config.standard 0x8000 [0x49, 0xFF] [] with a := 0xFF }
    stepGives s { s with a := 0x00, pc := 0x8002, flags := { Flags.clear with z := true }, cycleCount := 2 } := by decide

/-- V44 (R169): source example. -/
theorem test_cmpImm_V44 :
    let s := { launch Config.standard 0x8000 [0xC9, 0x10] [] with a := 0x10 }
    stepGives s { s with pc := 0x8002, flags := { Flags.clear with c := true, z := true }, cycleCount := 2 } := by decide

/-- V45 (R169): source example. -/
theorem test_cmpImm_V45 :
    let s := { launch Config.standard 0x8000 [0xC9, 0x20] [] with a := 0x10 }
    stepGives s { s with pc := 0x8002, flags := { Flags.clear with n := true }, cycleCount := 2 } := by decide

/-- V47 (R170). -/
theorem test_cpxImm_V47 :
    let s := { launch Config.standard 0x8000 [0xE0, 0xFF] [] with x := 0x00 }
    stepGives s { s with pc := 0x8002, cycleCount := 2 } := by decide

/-- V48 (R171): V unchanged. -/
theorem test_cpyImm_V48 :
    let s := { launch Config.standard 0x8000 [0xC0, 0x00] [] with y := 0x00, flags := { Flags.clear with v := true } }
    stepGives s { s with pc := 0x8002, flags := { Flags.clear with v := true, c := true, z := true }, cycleCount := 2 } := by decide

/-- V49 (R172). -/
theorem test_bitZp_V49 :
    let s := { launch Config.standard 0x8000 [0x24, 0x10] [(0x0010, 0xC0)] with a := 0x0F }
    stepGives s { s with pc := 0x8002, flags := { Flags.clear with z := true, v := true, n := true }, cycleCount := 3 } := by decide

/-- V50 (R172): Z=0 because A&v=0x01; V from bit 6. -/
theorem test_bitAbs_V50 :
    let s := { launch Config.standard 0x8000 [0x2C, 0x00, 0x02] [(0x0200, 0x41)] with a := 0x01, flags := { Flags.clear with c := true } }
    stepGives s { s with pc := 0x8003, flags := { Flags.clear with c := true, v := true }, cycleCount := 4 } := by decide

/-- V60 (R181). -/
theorem test_aslAcc_V60 :
    let s := { launch Config.standard 0x8000 [0x0A] [] with a := 0x80 }
    stepGives s { s with a := 0x00, pc := 0x8001, flags := { Flags.clear with c := true, z := true }, cycleCount := 2 } := by decide

/-- V61 (R181). -/
theorem test_aslZp_V61 :
    let s := launch Config.standard 0x8000 [0x06, 0x10] [(0x0010, 0x41)]
    stepGives s { s with pc := 0x8002, flags := { Flags.clear with n := true }, cycleCount := 5, mem := Memory.write s.mem 0x0010 0x82 } := by decide

/-- V62 (R182). -/
theorem test_lsrAcc_V62 :
    let s := { launch Config.standard 0x8000 [0x4A] [] with a := 0x01 }
    stepGives s { s with a := 0x00, pc := 0x8001, flags := { Flags.clear with c := true, z := true }, cycleCount := 2 } := by decide

/-- V63 (R182). -/
theorem test_lsrAbs_V63 :
    let s := { launch Config.standard 0x8000 [0x4E, 0x00, 0x02] [(0x0200, 0xFF)] with flags := { Flags.clear with n := true } }
    stepGives s { s with pc := 0x8003, flags := { Flags.clear with n := false, c := true }, cycleCount := 6, mem := Memory.write s.mem 0x0200 0x7F } := by decide

/-- V64 (R183). -/
theorem test_rolAcc_V64 :
    let s := { launch Config.standard 0x8000 [0x2A] [] with a := 0x80, flags := { Flags.clear with c := true } }
    stepGives s { s with a := 0x01, pc := 0x8001, cycleCount := 2 } := by decide

/-- V65 (R183). -/
theorem test_rolAcc_V65 :
    let s := { launch Config.standard 0x8000 [0x2A] [] with a := 0x00, flags := { Flags.clear with c := false } }
    stepGives s { s with pc := 0x8001, flags := { Flags.clear with c := false, z := true }, cycleCount := 2 } := by decide

/-- V66 (R184). -/
theorem test_rorAcc_V66 :
    let s := { launch Config.standard 0x8000 [0x6A] [] with a := 0x01, flags := { Flags.clear with c := true } }
    stepGives s { s with a := 0x80, pc := 0x8001, flags := { Flags.clear with c := true, n := true }, cycleCount := 2 } := by decide

/-- V67 (R184). -/
theorem test_rorAbsX_V67 :
    let s := { launch Config.standard 0x8000 [0x7E, 0x00, 0x02] [(0x0201, 0x02)] with x := 0x01 }
    stepGives s { s with pc := 0x8003, cycleCount := 7, mem := Memory.write s.mem 0x0201 0x01 } := by decide

/-- V68 (R185). -/
theorem test_incZp_V68 :
    let s := launch Config.standard 0x8000 [0xE6, 0x10] [(0x0010, 0xFF)]
    stepGives s { s with pc := 0x8002, flags := { Flags.clear with z := true }, cycleCount := 5, mem := Memory.write s.mem 0x0010 0x00 } := by decide

/-- V69 (R185): ROM target: flags from 0x80, fault, byte unchanged. -/
theorem test_incAbs_V69 :
    let s := launch Config.standard 0x8000 [0xEE, 0x00, 0x90] [(0x9000, 0x7F)]
    stepGives s { s with pc := 0x8003, flags := { Flags.clear with n := true }, running := false, fault := .outOfBoundsWrite, cycleCount := 6 } := by decide

/-- V70 (R186). -/
theorem test_decZp_V70 :
    let s := launch Config.standard 0x8000 [0xC6, 0x10] [(0x0010, 0x00)]
    stepGives s { s with pc := 0x8002, flags := { Flags.clear with n := true }, cycleCount := 5, mem := Memory.write s.mem 0x0010 0xFF } := by decide

/-- V71 (R186): zp,X wraps to 0x10. -/
theorem test_decZpX_V71 :
    let s := { launch Config.standard 0x8000 [0xD6, 0xF0] [(0x0010, 0x01)] with x := 0x20 }
    stepGives s { s with pc := 0x8002, flags := { Flags.clear with z := true }, cycleCount := 6, mem := Memory.write s.mem 0x0010 0x00 } := by decide

/-- V72 (R187). -/
theorem test_inx_V72 :
    let s := { launch Config.standard 0x8000 [0xE8] [] with x := 0xFF }
    stepGives s { s with x := 0x00, pc := 0x8001, flags := { Flags.clear with z := true }, cycleCount := 2 } := by decide

/-- V73 (R188). -/
theorem test_iny_V73 :
    let s := { launch Config.standard 0x8000 [0xC8] [] with y := 0x7F }
    stepGives s { s with y := 0x80, pc := 0x8001, flags := { Flags.clear with n := true }, cycleCount := 2 } := by decide

/-- V74 (R189). -/
theorem test_dex_V74 :
    let s := { launch Config.standard 0x8000 [0xCA] [] with x := 0x00 }
    stepGives s { s with x := 0xFF, pc := 0x8001, flags := { Flags.clear with n := true }, cycleCount := 2 } := by decide

/-- V75 (R190). -/
theorem test_dey_V75 :
    let s := { launch Config.standard 0x8000 [0x88] [] with y := 0x01 }
    stepGives s { s with y := 0x00, pc := 0x8001, flags := { Flags.clear with z := true }, cycleCount := 2 } := by decide

/-- V80 (R200). -/
theorem test_tax_V80 :
    let s := { launch Config.standard 0x8000 [0xAA] [] with a := 0x90 }
    stepGives s { s with x := 0x90, pc := 0x8001, flags := { Flags.clear with n := true }, cycleCount := 2 } := by decide

/-- V81 (R201). -/
theorem test_tay_V81 :
    let s := { launch Config.standard 0x8000 [0xA8] [] with a := 0x00, y := 0x55 }
    stepGives s { s with y := 0x00, pc := 0x8001, flags := { Flags.clear with z := true }, cycleCount := 2 } := by decide

/-- V82 (R202). -/
theorem test_txa_V82 :
    let s := { launch Config.standard 0x8000 [0x8A] [] with x := 0x01, flags := { Flags.clear with z := true, n := true } }
    stepGives s { s with a := 0x01, pc := 0x8001, flags := { Flags.clear with z := false, n := false }, cycleCount := 2 } := by decide

/-- V83 (R203). -/
theorem test_tya_V83 :
    let s := { launch Config.standard 0x8000 [0x98] [] with y := 0xFF }
    stepGives s { s with a := 0xFF, pc := 0x8001, flags := { Flags.clear with n := true }, cycleCount := 2 } := by decide

/-- V84 (R204). -/
theorem test_tsx_V84 :
    let s := { launch Config.standard 0x8000 [0xBA] [] with sp := 0xFD }
    stepGives s { s with x := 0xFD, pc := 0x8001, flags := { Flags.clear with n := true }, cycleCount := 2 } := by decide

/-- V85 (R204). -/
theorem test_tsx_V85 :
    let s := { launch Config.standard 0x8000 [0xBA] [] with sp := 0x00, x := 0x12 }
    stepGives s { s with x := 0x00, pc := 0x8001, flags := { Flags.clear with z := true }, cycleCount := 2 } := by decide

/-- V86 (R205): no flags. -/
theorem test_txs_V86 :
    let s := { launch Config.standard 0x8000 [0x9A] [] with x := 0x00, flags := { Flags.clear with n := true } }
    stepGives s { s with sp := 0x00, pc := 0x8001, cycleCount := 2 } := by decide

/-- V87 (R206). -/
theorem test_clc_V87 :
    let s := { launch Config.standard 0x8000 [0x18] [] with flags := { Flags.clear with c := true } }
    stepGives s { s with pc := 0x8001, flags := { Flags.clear with c := false }, cycleCount := 2 } := by decide

/-- V88 (R207). -/
theorem test_sec_V88 :
    let s := launch Config.standard 0x8000 [0x38] []
    stepGives s { s with pc := 0x8001, flags := { Flags.clear with c := true }, cycleCount := 2 } := by decide

/-- V89 (R208). -/
theorem test_cli_V89 :
    let s := { launch Config.standard 0x8000 [0x58] [] with flags := { Flags.clear with i := true } }
    stepGives s { s with pc := 0x8001, flags := { Flags.clear with i := false }, cycleCount := 2 } := by decide

/-- V90 (R209). -/
theorem test_sei_V90 :
    let s := launch Config.standard 0x8000 [0x78] []
    stepGives s { s with pc := 0x8001, flags := { Flags.clear with i := true }, cycleCount := 2 } := by decide

/-- V91 (R210). -/
theorem test_cld_V91 :
    let s := { launch Config.standard 0x8000 [0xD8] [] with flags := { Flags.clear with d := true } }
    stepGives s { s with pc := 0x8001, flags := { Flags.clear with d := false }, cycleCount := 2 } := by decide

/-- V92 (R211). -/
theorem test_sed_V92 :
    let s := launch Config.standard 0x8000 [0xF8] []
    stepGives s { s with pc := 0x8001, flags := { Flags.clear with d := true }, cycleCount := 2 } := by decide

/-- V93 (R212). -/
theorem test_clv_V93 :
    let s := { launch Config.standard 0x8000 [0xB8] [] with flags := { Flags.clear with v := true } }
    stepGives s { s with pc := 0x8001, flags := { Flags.clear with v := false }, cycleCount := 2 } := by decide

/-- V94 (R213). -/
theorem test_pha_V94 :
    let s := { launch Config.standard 0x8000 [0x48] [] with a := 0x49 }
    stepGives s { s with sp := 0xFE, pc := 0x8001, cycleCount := 3, mem := Memory.write s.mem 0x01FF 0x49 } := by decide

/-- V95 (R213): SP wraps 00 -> FF. -/
theorem test_pha_V95 :
    let s := { launch Config.standard 0x8000 [0x48] [] with a := 0x49, sp := 0x00 }
    stepGives s { s with sp := 0xFF, pc := 0x8001, cycleCount := 3, mem := Memory.write s.mem 0x0100 0x49 } := by decide

/-- V96 (R214). -/
theorem test_pla_V96 :
    let s := { launch Config.standard 0x8000 [0x68] [(0x01FF, 0x00)] with sp := 0xFE, flags := { Flags.clear with n := true } }
    stepGives s { s with sp := 0xFF, pc := 0x8001, flags := { Flags.clear with n := false, z := true }, cycleCount := 4 } := by decide

/-- V97 (R214): SP wraps FF -> 00. -/
theorem test_pla_V97 :
    let s := { launch Config.standard 0x8000 [0x68] [(0x0100, 0x80)] with sp := 0xFF }
    stepGives s { s with a := 0x80, sp := 0x00, pc := 0x8001, flags := { Flags.clear with n := true }, cycleCount := 4 } := by decide

/-- V98 (R215). -/
theorem test_php_V98 :
    let s := { launch Config.standard 0x8000 [0x08] [] with flags := { Flags.clear with c := true, z := true } }
    stepGives s { s with sp := 0xFE, pc := 0x8001, cycleCount := 3, mem := Memory.write s.mem 0x01FF 0x23 } := by decide

/-- V99 (R215). -/
theorem test_php_V99 :
    let s := { launch Config.standard 0x8000 [0x08] [] with flags := { Flags.clear with b := true, n := true } }
    stepGives s { s with sp := 0xFE, pc := 0x8001, cycleCount := 3, mem := Memory.write s.mem 0x01FF 0xB0 } := by decide

/-- V100 (R216). -/
theorem test_plp_V100 :
    let s := { launch Config.standard 0x8000 [0x28] [(0x01FF, 0xC3)] with sp := 0xFE }
    stepGives s { s with sp := 0xFF, pc := 0x8001, flags := { Flags.clear with c := true, z := true, v := true, n := true }, cycleCount := 4 } := by decide

/-- V101 (R216): bit5=0 does not halt. -/
theorem test_plp_V101 :
    let s := { launch Config.standard 0x8000 [0x28] [(0x01FF, 0x00)] with sp := 0xFE, flags := { Flags.clear with c := true, z := true, i := true, d := true, b := true, v := true, n := true } }
    stepGives s { s with sp := 0xFF, pc := 0x8001, flags := { Flags.clear with c := false, z := false, i := false, d := false, b := false, v := false, n := false }, cycleCount := 4 } := by decide

/-- V103 (R217). -/
theorem test_nop_V103 :
    let s := launch Config.standard 0x8000 [0xEA] []
    stepGives s { s with pc := 0x8001, cycleCount := 2 } := by decide

/-- V110 (R231): taken. -/
theorem test_bcc_V110 :
    let s := { launch Config.standard 0x8000 [0x90, 0x04] [] with flags := { Flags.clear with c := false } }
    stepGives s { s with pc := 0x8006, cycleCount := 3 } := by decide

/-- V111 (R231): not taken. -/
theorem test_bcc_V111 :
    let s := { launch Config.standard 0x8000 [0x90, 0x04] [] with flags := { Flags.clear with c := true } }
    stepGives s { s with pc := 0x8002, cycleCount := 2 } := by decide

/-- V112 (R232): taken. -/
theorem test_bcs_V112 :
    let s := { launch Config.standard 0x8000 [0xB0, 0x04] [] with flags := { Flags.clear with c := true } }
    stepGives s { s with pc := 0x8006, cycleCount := 3 } := by decide

/-- V113 (R232): not taken. -/
theorem test_bcs_V113 :
    let s := { launch Config.standard 0x8000 [0xB0, 0x04] [] with flags := { Flags.clear with c := false } }
    stepGives s { s with pc := 0x8002, cycleCount := 2 } := by decide

/-- V115 (R233): not taken. -/
theorem test_beq_V115 :
    let s := { launch Config.standard 0x8000 [0xF0, 0x04] [] with flags := { Flags.clear with z := false } }
    stepGives s { s with pc := 0x8002, cycleCount := 2 } := by decide

/-- V118 (R235): taken. -/
theorem test_bmi_V118 :
    let s := { launch Config.standard 0x8000 [0x30, 0x04] [] with flags := { Flags.clear with n := true } }
    stepGives s { s with pc := 0x8006, cycleCount := 3 } := by decide

/-- V119 (R235): not taken. -/
theorem test_bmi_V119 :
    let s := { launch Config.standard 0x8000 [0x30, 0x04] [] with flags := { Flags.clear with n := false } }
    stepGives s { s with pc := 0x8002, cycleCount := 2 } := by decide

/-- V120 (R236): taken. -/
theorem test_bpl_V120 :
    let s := { launch Config.standard 0x8000 [0x10, 0x04] [] with flags := { Flags.clear with n := false } }
    stepGives s { s with pc := 0x8006, cycleCount := 3 } := by decide

/-- V122 (R237): taken. -/
theorem test_bvc_V122 :
    let s := { launch Config.standard 0x8000 [0x50, 0x04] [] with flags := { Flags.clear with v := false } }
    stepGives s { s with pc := 0x8006, cycleCount := 3 } := by decide

/-- V123 (R237): not taken. -/
theorem test_bvc_V123 :
    let s := { launch Config.standard 0x8000 [0x50, 0x04] [] with flags := { Flags.clear with v := true } }
    stepGives s { s with pc := 0x8002, cycleCount := 2 } := by decide

/-- V124 (R238): taken. -/
theorem test_bvs_V124 :
    let s := { launch Config.standard 0x8000 [0x70, 0x04] [] with flags := { Flags.clear with v := true } }
    stepGives s { s with pc := 0x8006, cycleCount := 3 } := by decide

/-- V125 (R238): not taken. -/
theorem test_bvs_V125 :
    let s := { launch Config.standard 0x8000 [0x70, 0x04] [] with flags := { Flags.clear with v := false } }
    stepGives s { s with pc := 0x8002, cycleCount := 2 } := by decide

/-- V126 (R233): branch to itself. -/
theorem test_beq_V126 :
    let s := { launch Config.standard 0x8000 [0xF0, 0xFE] [] with flags := { Flags.clear with z := true } }
    stepGives s { s with pc := 0x8000, cycleCount := 3 } := by decide

/-- V127 (R236): +127. -/
theorem test_bpl_V127 :
    let s := launch Config.standard 0x8000 [0x10, 0x7F] []
    stepGives s { s with pc := 0x8081, cycleCount := 3 } := by decide

/-- V128 (R240). -/
theorem test_jmpAbs_V128 :
    let s := launch Config.standard 0x8000 [0x4C, 0x00, 0x90] []
    stepGives s { s with pc := 0x9000, cycleCount := 3 } := by decide

/-- V129 (R240). -/
theorem test_jmpInd_V129 :
    let s := launch Config.standard 0x8000 [0x6C, 0x00, 0x03] [(0x0300, 0x00), (0x0301, 0x90)]
    stepGives s { s with pc := 0x9000, cycleCount := 5 } := by decide

/-- V131 (R241): SP wraps: bytes at 0x0100 and 0x01FF. -/
theorem test_jsr_V131 :
    let s := { launch Config.standard 0x8000 [0x20, 0x00, 0x30] [] with sp := 0x00 }
    stepGives s { s with sp := 0xFE, pc := 0x3000, cycleCount := 6, mem := Memory.write (Memory.write s.mem 0x0100 0x80) 0x01FF 0x02 } := by decide

/-- V133 (R242): 0xFFFF+1 wraps to 0x0000. -/
theorem test_rts_V133 :
    let s := { launch Config.standard 0x8000 [0x60] [(0x01FE, 0xFF), (0x01FF, 0xFF)] with sp := 0xFD }
    stepGives s { s with sp := 0xFF, pc := 0x0000, cycleCount := 6 } := by decide

/-- V135 (R250): pushed bit4 = old B; I unchanged. -/
theorem test_brk_V135 :
    let s := { launch Config.standard 0x8002 [0x00] [(0xFFFE, 0x00), (0xFFFF, 0x90)] with flags := { Flags.clear with i := false, b := true, c := true } }
    stepGives s { s with sp := 0xFC, pc := 0x9000, running := false, cycleCount := 7, mem := Memory.write (Memory.write (Memory.write s.mem 0x01FD 0x31) 0x01FE 0x03) 0x01FF 0x80 } := by decide

/-- V136 (R250): BRK_PC_OFFSET=2, BRK_HALTS=false. -/
theorem test_brk_V136 :
    let s := launch { Config.standard with brkPcOffset := .two, brkHalts := false } 0x8002 [0x00] [(0xFFFE, 0x00), (0xFFFF, 0x90)]
    stepGives s { s with sp := 0xFC, pc := 0x9000, flags := { Flags.clear with b := true }, cycleCount := 7, mem := Memory.write (Memory.write (Memory.write s.mem 0x01FD 0x20) 0x01FE 0x04) 0x01FF 0x80 } := by decide

/-- V138 (R251): bit5 ignored; no +1. -/
theorem test_rti_V138 :
    let s := { launch Config.standard 0x8000 [0x40] [(0x01FD, 0xDF), (0x01FE, 0x00), (0x01FF, 0x12)] with sp := 0xFC }
    stepGives s { s with sp := 0xFF, pc := 0x1200, flags := { Flags.clear with c := true, z := true, i := true, d := true, b := true, v := true, n := true }, cycleCount := 6 } := by decide

/-- V140 (R116): unrecognised, UNREC_PC_ADVANCE=0. -/
theorem test_unrecognised_V140 :
    let s := launch Config.standard 0x8000 [0x02] []
    stepGives s { s with pc := 0x8000, cycleCount := 1 } := by decide

/-- V141 (R116): UNREC_PC_ADVANCE=1. -/
theorem test_unrecognised_V141 :
    let s := launch { Config.standard with unrecPcAdvance := .one } 0x8000 [0xFF] []
    stepGives s { s with pc := 0x8001, cycleCount := 1 } := by decide

/-- V142 (R116): 0x80 is unrecognised (no NMOS immediate NOP). -/
theorem test_unrecognised_V142 :
    let s := { launch Config.standard 0x8000 [0x80, 0x05] [] with flags := { Flags.clear with c := true } }
    stepGives s { s with pc := 0x8000, cycleCount := 1 } := by decide

/-- V150 (R139): 3 operand bytes. -/
theorem test_ldaAbs_V150 :
    let s := launch Config.wide 0x010000 [0xAD, 0x56, 0x34, 0x12] [(0x123456, 0x5A)]
    stepGives s { s with a := 0x5A, pc := 0x010004, cycleCount := 4 } := by decide

/-- V151 (R140): wraps at 2^24. -/
theorem test_ldaAbsX_V151 :
    let s := { launch Config.wide 0x010000 [0xBD, 0xFF, 0xFF, 0xFF] [(0x000000, 0x11)] with x := 0x01 }
    stepGives s { s with a := 0x11, pc := 0x010004, cycleCount := 4 } := by decide

/-- V152 (R144): 3-byte zero-page pointer. -/
theorem test_ldaIndY_V152 :
    let s := { launch Config.wide 0x010000 [0xB1, 0x20] [(0x000020, 0x00), (0x000021, 0x00), (0x000022, 0x02), (0x020001, 0x22)] with y := 0x01 }
    stepGives s { s with a := 0x22, pc := 0x010002, cycleCount := 5 } := by decide

/-- V153 (R241): pushes 3 bytes, high first. -/
theorem test_jsr_V153 :
    let s := launch Config.wide 0x010000 [0x20, 0x00, 0x20, 0x01] []
    stepGives s { s with sp := 0xFC, pc := 0x012000, cycleCount := 6, mem := Memory.write (Memory.write (Memory.write s.mem 0x0001FD 0x03) 0x0001FE 0x00) 0x0001FF 0x01 } := by decide

/-- V154 (R242). -/
theorem test_rts_V154 :
    let s := { launch Config.wide 0x012000 [0x60] [(0x0001FD, 0x03), (0x0001FE, 0x00), (0x0001FF, 0x01)] with sp := 0xFC }
    stepGives s { s with sp := 0xFF, pc := 0x010004, cycleCount := 6 } := by decide

/-! ## The step's event and the caller's view -/

/-- V140 (R116): the event names the byte and its address. -/
theorem test_event_V140 :
    stepEvent (launch Config.standard 0x8000 [0x02] []) = some (.unrecognised 0x02 0x8000) := by decide

/-- R120: a fault takes precedence over BRK as the reason (BRK with a protected stack page). -/
theorem test_stepEnd_fault_first :
    let s := launch { Config.standard with writable := [] } 0x8000 [0x00] []
    (match step s with
      | .next t => decide (stepEnd t = .halted .fault ∧ exitStatus t = 1)
      | _ => false) = true := by decide

/-- R276: a JSR's trace view has the pushed bytes, high byte first (V131's instruction). -/
theorem test_traceView_jsr :
    let s := launch Config.standard 0x8000 [0x20, 0x34, 0x12] []
    (traceView s (resetEngine s)).pushed = [0x80, 0x02] ∧ (traceView s (resetEngine s)).popped = [] := by decide

/-! ## Reset and initialise (95_test_vectors.md section 2.9) -/

/-- The start state of V160. -/
def spent (sp : Byte) : State :=
  { State.reset with
    a := 0x49, x := 0x01, y := 0x02, sp := 0x12, pc := 0x1111
    flags := ⟨true, true, true, true, true, true, true⟩
    running := false, fault := .outOfBoundsWrite, cycleCount := 500
    mem := memoryOf [(0xFFFC, 0x00), (0xFFFD, 0x80)]
    cfg := { Config.standard with resetSp := sp } }

theorem test_reset_V160 :
    resetEngine (spent 0xFF) =
      { State.reset with pc := 0x8000, mem := (spent 0xFF).mem, cfg := (spent 0xFF).cfg } := by decide

theorem test_reset_V161 : (resetEngine (spent 0xFD)).sp = 0xFD ∧ (resetEngine (spent 0xFD)).pc = 0x8000 := by decide

theorem test_reset_V162 :
    (resetEngine { State.reset with mem := memoryOf [(0xFFFC, 0x34), (0xFFFD, 0x12)] }).pc = 0x1234 := by decide

theorem test_initialise_V163 :
    let s := { State.reset with
      mem := memoryOf [(0x00FF, 0x77), (0x01FF, 0x66), (0x0200, 0x55), (0x7FFF, 0x44), (0x8000, 0x33)] }
    initialise s = { s with mem := memoryOf [(0x00FF, 0x77), (0x01FF, 0x66), (0x8000, 0x33)] } := by decide

theorem test_status_V164 : getPS State.reset = 0x20 := by decide

/-- R293, R301: initialise, load, reset; the cursor advances over the bytes. -/
theorem test_boot :
    let s := boot [.cursor 0x0300, .byte 0xA9, .byte 0x01, .cursor 0xFFFC, .byte 0x00, .byte 0x03] State.reset
    s.pc = 0x0300 ∧ s.byteAt 0x0301 = 0x01 ∧ s.running = true := by decide

/-- R301: the text form of an image. -/
theorem test_image_text :
    imageOfText ['m', '3', '0', '0', ';', '\n', 'a', '9', ';', '\n', '1', ';', '\n'] [] =
      some [.cursor 0x0300, .byte 0xA9, .byte 0x01] ∧
    imageOfText ['A', '9', ';'] [] = none ∧ imageOfText ['1', '0', '0', ';'] [] = none ∧
    imageOfText ['a', '9'] [] = none := by decide

/-- R297, R299: a run ends at the first halted state, whatever fuel is left. -/
theorem test_run_ends :
    (run 3 (launch Config.standard 0x0300 [0x00] [])).running = false ∧
    (run 3 (launch Config.standard 0x0300 [0x00] [])).cycleCount = 7 := by decide

/-- R296: a device changes an IO-window byte and no other. -/
theorem test_device_write :
    let s := { State.reset with cfg := { Config.standard with ioWindow := some (0x7000, 0x700F) } }
    (deviceWrite 0x700F 0x5A s).byteAt 0x700F = 0x5A ∧ deviceWrite 0x7010 0x5A s = s := by decide

/-! ## Memory access (section 2.10) -/

theorem test_memory_V170_V171_V172 :
    (memWrite 0x7FFF 0x12 State.reset).byteAt 0x7FFF = 0x12 ∧ (memWrite 0x7FFF 0x12 State.reset).fault = .none ∧
    memWrite 0x8000 0x12 State.reset = { State.reset with fault := .outOfBoundsWrite } ∧
    memWrite 0xFFFF 0x12 State.reset = { State.reset with fault := .outOfBoundsWrite } := by decide

theorem test_memory_V174_V175_V176 :
    let s := { State.reset with mem := memoryOf [(0x0000, 0x12), (0x0005, 0x99), (0x00FF, 0x78), (0xFFFF, 0x34)] }
    memRead 0x10005 s = 0x99 ∧ readAddr 0xFFFF s = 0x1234 ∧ readAddrZP 0xFF s = 0x1278 := by decide

theorem test_stack_V177 :
    let s := push 0x5A { State.reset with sp := 0x00 }
    s.byteAt 0x0100 = 0x5A ∧ s.sp = 0xFF ∧ (pop s).1 = 0x5A ∧ (pop s).2.sp = 0x00 := by decide

/-- R51, R52: the regions at their boundaries. -/
theorem test_regions :
    Config.standard.regionOf 0x00FF = .zeroPage ∧ Config.standard.regionOf 0x0100 = .stackPage ∧
    Config.standard.regionOf 0x01FF = .stackPage ∧ Config.standard.regionOf 0x0200 = .ram ∧
    Config.standard.regionOf 0x7FFF = .ram ∧ Config.standard.regionOf 0x8000 = .rom ∧
    Config.standard.regionOf 0xFEFF = .rom ∧ Config.standard.regionOf 0xFF00 = .system := by decide

/-! ## Well-formedness: what each check refuses -/

theorem test_illFormed_absolute :
    (Instr.ldaAbs 0x10000).wellFormed .bits16 = false ∧ (Instr.ldaAbs 0xFFFF).wellFormed .bits16 = true := by decide

theorem test_illFormed_absoluteX :
    (Instr.staAbsX 0x10000).wellFormed .bits16 = false ∧ (Instr.staAbsX 0x10000).wellFormed .bits24 = true := by decide

theorem test_illFormed_absoluteY : (Instr.ldxAbsY 0xFFFFFF).wellFormed .bits16 = false := by decide

theorem test_illFormed_indirect : (Instr.jmpInd 0x10000).wellFormed .bits16 = false := by decide

theorem test_wellFormed_byte : (Instr.ldaIndY 0xFF).wellFormed .bits16 = true := by decide

theorem test_legal : Config.standard.legal = true ∧ Config.wide.legal = true := by decide

theorem test_illegal_ramEnd :
    { Config.standard with ramEnd := 0x8000 }.ramEndLegal = false ∧ { Config.wide with ramEnd := 0x01FF }.ramEndLegal = false := by
  decide

theorem test_illegal_sysBase :
    { Config.standard with sysBase := 0xFE00 }.sysBaseLegal = false ∧
    { Config.wide with sysBase := 0xFFFF01 }.sysBaseLegal = false := by decide

theorem test_illegal_ioWindow :
    { Config.standard with ioWindow := some (0x01FF, 0x0300) }.ioWindowLegal = false ∧
    { Config.standard with ioWindow := some (0x0300, 0x02FF) }.ioWindowLegal = false ∧
    { Config.standard with ioWindow := some (0x0300, 0x8000) }.ioWindowLegal = false := by decide

theorem test_illegal_vectors :
    { Config.standard with resetVec := 0xFEFE }.vectorsLegal = false ∧
    { Config.standard with brkVec := 0xFFFF }.vectorsLegal = false := by decide

theorem test_illegal_overlap :
    { Config.standard with resetVec := 0xFFFD, brkVec := 0xFFFE }.vectorsApart = false ∧
    { Config.standard with resetVec := 0xFFFE, brkVec := 0xFFFD }.vectorsApart = false := by decide

theorem test_illegal_cycleBits : { Config.standard with cycleBits := some 31 }.cycleBitsLegal = false := by decide

/-! ## The host's two functions -/

theorem test_decodeTableWord :
    decodeTableWord 24 0x1234AD = some (.ldaAbs 0x1234) ∧ decodeTableWord 16 0x42B1 = some (.ldaIndY 0x42) ∧
    decodeTableWord 8 0xEA = some .nop ∧ decodeTableWord 8 0x02 = none := by decide

theorem test_withFetchWord :
    stepGives (State.reset.withFetchWord 24 0x12344C)
      { State.reset.withFetchWord 24 0x12344C with pc := 0x1234, cycleCount := 3 } := by decide

/-! ## Witnesses: states that meet the hypotheses of the obligations -/

/-- A running state without a fault over canonical memory, PC in ROM. -/
def ready : State := launch Config.standard 0x8000 [] [(0x0010, 0xFF), (0x0011, 0x7F), (0x0012, 0x00), (0x0013, 0x80)]

/-- The same with the stack page protected. -/
def guarded : State := { ready with cfg := { Config.standard with writable := [(0x0200, 0x7FFF)] } }

/-- The same on the wide bus. -/
def wideReady : State := launch Config.wide 0xFFFFFF [] [(0x000010, 0xFF)]

/-- The state an instruction ends in, and whether it completes. -/
def endState (i : Instr) (s : State) : State :=
  match exec i s with
  | .next t => t
  | _ => s

abbrev completes (i : Instr) (s : State) : Prop :=
  (match exec i s with
    | .next _ => true
    | _ => false) = true

abbrev steps (s : State) : Prop :=
  (match step s with
    | .next _ => true
    | _ => false) = true

/-- Bytes decode to the instruction and leave the rest. -/
abbrev decodesWith (bus : BusWidth) (bytes : List Byte) (i : Instr) (rest : List Byte) : Prop :=
  (match decode bus bytes with
    | .ok (j, r) => decide (j = i ∧ r = rest)
    | .error _ => false) = true

theorem witness_DecodeOfEncodeIsTheInstruction :
    (Instr.ldaAbs 0xFFFF).wellFormed .bits16 = true ∧ (Instr.jsr 0xFFFFFF).wellFormed .bits24 = true ∧
    (Instr.ldaImm 0xFF).wellFormed .bits16 = true := by decide

theorem witness_EncodeOfDecodeIsTheBytes :
    decodesWith .bits16 [0xAD, 0xFF, 0xFF, 0x77] (.ldaAbs 0xFFFF) [0x77] ∧
    decodesWith .bits24 [0xAD, 0xFF, 0xFF, 0x77] (.ldaAbs 0x77FFFF) [] := by decide

theorem witness_StepRunsTheDecodedInstruction :
    let s := launch Config.standard 0xFFFF [0xA9, 0x80] []
    s.running = true ∧ decodesWith s.cfg.bus (fetchBytes s) (.ldaImm 0x80) [0x00] := by decide

theorem witness_InstructionBytesAtPcRun :
    let s := launch Config.standard 0xFFFE [0xAD, 0x34, 0x12] []
    s.running = true ∧ (Instr.ldaAbs 0x1234).wellFormed s.cfg.bus = true ∧
    encode s.cfg.bus (.ldaAbs 0x1234) =
      [s.byteAt (s.addr 0xFFFE), s.byteAt (s.addr 0xFFFF), s.byteAt (s.addr 0x10000)] := by decide

theorem witness_UnrecognisedOpcodeStep :
    let s := launch Config.standard 0xFFFF [0xFF] []
    s.running = true ∧ s.byteAt (s.addr s.pc.toNat) ∈ Sys2Proof.Claims.unrecognisedBytes := by decide

theorem witness_HaltedEngineHasNoStep : (spent 0xFF).running = false ∧ ready.running = true := by decide

theorem witness_RunningEngineAlwaysSteps : ready.running = true := by decide

/-- A fault, a BRK that halts, one that does not, and an instruction that goes on. -/
theorem witness_HaltCausesAndReasons :
    ready.running = true ∧ ready.fault = .none ∧
    completes (.staAbs 0x8000) ready ∧ (endState (.staAbs 0x8000) ready).fault = .outOfBoundsWrite ∧
    completes .brk ready ∧ (endState .brk ready).running = false ∧ (endState .brk ready).fault = .none ∧
    (endState .brk { ready with cfg := { Config.standard with brkHalts := false } }).running = true ∧
    completes .nop ready ∧ (endState .nop ready).running = true := by decide

theorem witness_FaultStaysAndHalts :
    completes .nop ready ∧ (endState .nop ready).running = true ∧
    completes .nop { ready with fault := .outOfBoundsWrite } ∧
    (endState (.staAbs 0x8000) ready).fault = .outOfBoundsWrite := by decide

theorem witness_CycleAccounting :
    completes (.bne 0x80) ready ∧ (endState (.bne 0x80) ready).cycleCount = 3 ∧
    completes (.beq 0x80) ready ∧ (endState (.beq 0x80) ready).cycleCount = 2 ∧
    (endState .brk { ready with
      cycleCount := 2 ^ 32 - 1, cfg := { Config.standard with cycleBits := some 32 } }).cycleCount = 6 := by decide

theorem witness_StepKeepsTheInvariant : Inv ready ∧ steps ready :=
  ⟨⟨by decide, by decide, by decide, by decide, by decide⟩, by decide⟩

theorem witness_StepNeverChangesParameters : steps ready := by decide

/-- A store at the first protected address. -/
theorem witness_ProtectedBytesNeverChange :
    let s := launch Config.standard 0x0300 [0x8D, 0x00, 0x80] []
    Memory.wf s.mem ∧ steps s ∧ s.cfg.isWritable 0x8000 = false ∧ s.cfg.isWritable 0x7FFF = true := by decide

theorem witness_DecimalFlagGatesNothing :
    (Instr.adcImm 0x99).mnemonic ≠ .php ∧ (Instr.adcImm 0x99).mnemonic ≠ .brk ∧ completes (.adcImm 0x99) ready ∧
    Instr.plp.mnemonic ≠ .php ∧ Instr.plp.mnemonic ≠ .brk ∧ completes .plp ready := by decide

theorem witness_InterruptFlagGatesNothing :
    Instr.cli.mnemonic ≠ .php ∧ Instr.cli.mnemonic ≠ .brk ∧ completes .cli ready ∧
    Instr.nop.mnemonic ≠ .php ∧ Instr.nop.mnemonic ≠ .brk ∧ completes .nop ready := by decide

theorem witness_CycleCountGatesNothing : completes (.bne 0x05) ready := by decide

/-- STA is a writer of no flag. -/
theorem witness_FlagsChangeOnlyUnderTheirWriters :
    completes (.staZp 0x10) ready ∧ (Instr.staZp 0x10).mnemonic = .sta := by decide

/-- NOP is a writer of no register, and ASL on memory is not one of A. -/
theorem witness_RegistersAndMemoryChangeOnlyUnderTheirWriters :
    completes .nop ready ∧ completes (.aslZp 0x10) ready ∧ (Instr.aslZp 0x10).mode ≠ .accumulator := by decide

theorem witness_OtherInstructionsLeavePcNext :
    completes (.ldaAbs 0x1234) ready ∧ Sys2Proof.Claims.branchTaken (.ldaAbs 0x1234) ready.flags = false ∧
    completes (.beq 0x10) ready ∧ Sys2Proof.Claims.branchTaken (.beq 0x10) ready.flags = false := by decide

theorem witness_WriteIsSeenByTheNextRead :
    Memory.wf ready.mem ∧ ready.cfg.isWritable (ready.addr 0x7FFF) = true ∧
    ready.cfg.isWritable (ready.addr 0x8000) = false ∧ ready.addr 0x17FFF = ready.addr 0x7FFF ∧
    ready.addr 0x7FFE ≠ ready.addr 0x7FFF := by decide

theorem witness_ReadAddrIsLittleEndian : ready.cfg.bus = .bits16 ∧ wideReady.cfg.bus = .bits24 := by decide

theorem witness_StackWritable : Sys2Proof.Claims.StackWritable ready := by
  have : ∀ p : Byte, ready.cfg.isWritable (ready.addr (0x0100 + p.toNat)) = true := by decide +kernel
  exact this

theorem witness_PushedBytesPopInReverse :
    Memory.wf ready.mem ∧ Sys2Proof.Claims.StackWritable ready ∧ (List.replicate 256 (0x5A : Byte)).length ≤ 256 :=
  ⟨by decide, witness_StackWritable, by rw [List.length_replicate]⟩

theorem witness_ImmediateAndZeroPageModes :
    (Instr.ldxZpY 0xFF).mode.tag = .zeroPageY ∧ (Instr.stxZpY 0xFF).mode.tag = .zeroPageY := by decide

/-- R131: the byte at the effective address, on the address as it is and reduced modulo the bus width. -/
theorem test_operandValue :
    operandValue (.addr 0x0010) ready = 0xFF ∧ operandValue (.addr 0x10011) ready = 0x7F ∧
    operandValue .acc { ready with a := 0x5A } = 0x5A ∧ operandValue (.imm 0x33) ready = 0x33 := by decide

theorem witness_AbsoluteAndIndirectModes : ready.cfg.bus = .bits16 ∧ wideReady.cfg.bus = .bits24 := by decide

/-- Another halted state over the same parameters and an empty memory. -/
theorem witness_ResetSetsEveryRegister :
    let s := { spent 0xFF with mem := Memory.empty, cfg := Config.standard }
    s.cfg = Config.standard ∧ s.mem = Memory.empty ∧ s.running = false := by decide

theorem witness_InitialiseZeroesRam : Memory.wf ready.mem := by decide

theorem witness_LoadsWriteRegisterAndZN :
    ready.fault = .none ∧ (Instr.ldaIndY 0x10).mnemonic = .lda ∧ (Instr.ldxZpY 0x10).mnemonic = .ldx ∧
    (Instr.ldyImm 0x00).mnemonic = .ldy := by decide

/-- The last writable and the first protected address, through a pointer too. -/
theorem witness_StoresWriteOneByte :
    ready.fault = .none ∧ Memory.wf ready.mem ∧ (Instr.staIndY 0x10).mnemonic = .sta ∧
    (Instr.staIndY 0x10).mode = .memory (.indirectY 0x10) ∧
    ready.cfg.isWritable (effectiveAddress (.indirectY 0x10) (Sys2Proof.Claims.atExecute (.staIndY 0x10) ready)) = true ∧
    ready.cfg.isWritable (effectiveAddress (.indirectY 0x12) (Sys2Proof.Claims.atExecute (.staIndY 0x12) ready)) = false ∧
    (Instr.stxAbs 0x8000).mnemonic = .stx ∧ (Instr.styAbs 0x7FFF).mnemonic = .sty := by decide

theorem witness_AdcAddsWithCarry : ready.fault = .none ∧ (Instr.adcImm 0x7F).mnemonic = .adc := by decide

theorem witness_SbcSubtractsWithBorrow : ready.fault = .none ∧ (Instr.sbcImm 0x80).mnemonic = .sbc := by decide

theorem witness_LogicWritesAAndZN :
    ready.fault = .none ∧ (Instr.andImm 0x0F).mnemonic = .and ∧ (Instr.oraZp 0x10).mnemonic = .ora ∧
    (Instr.eorAbs 0x10).mnemonic = .eor := by decide

theorem witness_ComparesWriteCZN :
    ready.fault = .none ∧ (Instr.cmpImm 0x00).mnemonic = .cmp ∧ (Instr.cpxZp 0x10).mnemonic = .cpx ∧
    (Instr.cpyAbs 0x10).mnemonic = .cpy := by decide

theorem witness_BitTestsTheOperand : ready.fault = .none ∧ (Instr.bitZp 0x10).mnemonic = .bit := by decide

/-- The accumulator form, and the memory form on a writable and on a protected byte. -/
theorem witness_ShiftsWriteBack :
    ready.fault = .none ∧ Memory.wf ready.mem ∧ Instr.aslAcc.mnemonic = .asl ∧ Instr.aslAcc.mode = .accumulator ∧
    (Instr.lsrAbs 0x7FFF).mnemonic = .lsr ∧ (Instr.rolZp 0x10).mnemonic = .rol ∧
    (Instr.rorAbs 0x8000).mnemonic = .ror ∧
    ready.cfg.isWritable (effectiveAddress (.absolute 0x7FFF) (Sys2Proof.Claims.atExecute (.lsrAbs 0x7FFF) ready)) = true ∧
    ready.cfg.isWritable (effectiveAddress (.absolute 0x8000) (Sys2Proof.Claims.atExecute (.rorAbs 0x8000) ready)) = false := by
  decide

theorem witness_MemoryIncrementsWriteBack :
    ready.fault = .none ∧ Memory.wf ready.mem ∧ (Instr.incAbs 0x7FFF).mnemonic = .inc ∧
    (Instr.decAbs 0x8000).mnemonic = .dec ∧
    ready.cfg.isWritable (effectiveAddress (.absolute 0x7FFF) (Sys2Proof.Claims.atExecute (.incAbs 0x7FFF) ready)) = true ∧
    ready.cfg.isWritable (effectiveAddress (.absolute 0x8000) (Sys2Proof.Claims.atExecute (.decAbs 0x8000) ready)) = false := by
  decide

theorem witness_IndexIncrements : { ready with x := 0xFF, y := 0x00 }.fault = .none := by decide

theorem witness_StackPointerTransfers : ready.fault = .none := by decide

theorem witness_RegisterTransfers : ready.fault = .none := by decide

theorem witness_FlagInstructions : ready.fault = .none := by decide

theorem witness_InterruptFlagInstructions : ready.fault = .none := by decide

/-- A writable and a protected stack slot, at SP = 0xFF. -/
theorem witness_PushInstructions :
    ready.fault = .none ∧ Memory.wf ready.mem ∧ ready.cfg.isWritable (Sys2Proof.Claims.stackSlot ready 0) = true ∧
    guarded.fault = .none ∧ Memory.wf guarded.mem ∧
    guarded.cfg.isWritable (Sys2Proof.Claims.stackSlot guarded 0) = false := by decide

theorem witness_PullInstructions : ready.fault = .none := by decide

theorem witness_NopOnlyPasses : ready.fault = .none := by decide

/-- Every tested flag has both values. -/
theorem witness_BranchesTestOneFlag :
    ready.fault = .none ∧ ready.flags = ⟨false, false, false, false, false, false, false⟩ ∧
    { ready with flags := ⟨true, true, true, true, true, true, true⟩ }.fault = .none := by decide

theorem witness_JmpSetsPc : ready.fault = .none ∧ wideReady.fault = .none := by decide

/-- Writable and protected slots, and SP = 0x00, where the second push wraps. -/
theorem witness_JsrPushesAndJumps :
    ready.fault = .none ∧ Memory.wf ready.mem ∧
    ready.cfg.isWritable (Sys2Proof.Claims.stackSlot { ready with sp := 0x00 } 1) = true ∧
    guarded.fault = .none ∧ Memory.wf guarded.mem ∧
    guarded.cfg.isWritable (Sys2Proof.Claims.stackSlot guarded 1) = false := by decide

theorem witness_RtsReturns : ready.fault = .none ∧ wideReady.fault = .none := by decide

theorem witness_BrkTakesTheBreak :
    ready.fault = .none ∧ Memory.wf ready.mem ∧ ready.cfg.isWritable (Sys2Proof.Claims.stackSlot ready 2) = true ∧
    guarded.fault = .none ∧ Memory.wf guarded.mem ∧
    guarded.cfg.isWritable (Sys2Proof.Claims.stackSlot guarded 2) = false := by decide

theorem witness_RtiReturns : ready.fault = .none ∧ wideReady.fault = .none := by decide

theorem witness_JsrThenRtsComesBack :
    ready.fault = .none ∧ Memory.wf ready.mem ∧ Sys2Proof.Claims.StackWritable ready :=
  ⟨by decide, by decide, witness_StackWritable⟩

theorem witness_BrkThenRtiComesBack :
    ready.fault = .none ∧ Memory.wf ready.mem ∧ Sys2Proof.Claims.StackWritable ready :=
  ⟨by decide, by decide, witness_StackWritable⟩

end Sys2Proof.Tests
end

section
/-! SUPPORT. What one instruction keeps, what it can write and what it does not read; the statements of 10_state.md. -/

namespace Sys2Proof.Proofs

open Sys2Proof.Machine Sys2Proof.Claims

/-! ## What one instruction keeps -/

section OneInstruction

variable {i : Instr} {s t : State}

/-- No instruction changes a parameter (R21). -/
theorem exec_cfg (h : exec i s = .next t) : t.cfg = s.cfg := by
  obtain rfl := (exec_next_iff i s t).1 h
  simp [executed]

/-- The cost, plus 1 for a taken branch, within the counter's width (R38, R117). -/
theorem exec_cycleCount (h : exec i s = .next t) :
    t.cycleCount = s.cfg.wrapCycles (s.cycleCount + (i.baseCycles + bitNat (taken i.mnemonic s))) := by
  obtain rfl := (exec_next_iff i s t).1 h
  simp [executed]

/-- The engine goes on unless it was halted, the instruction is BRK under `BRK_HALTS`, or a fault is recorded (R36,
R118). -/
theorem exec_running (h : exec i s = .next t) :
    t.running = (s.running && !(decide (i.mnemonic = .brk) && s.cfg.brkHalts) && t.fault == .none) := by
  obtain rfl := (exec_next_iff i s t).1 h
  simp [executed, effect_running]

theorem exec_keeps_fault (h : exec i s = .next t) (hf : s.fault = .outOfBoundsWrite) :
    t.fault = .outOfBoundsWrite := by
  obtain rfl := (exec_next_iff i s t).1 h
  simpa [executed] using effect_fault _ _ _ _ (by simpa using hf)

theorem fault_eq_none_of_running (h : exec i s = .next t) (hr : t.running = true) : t.fault = .none := by
  rw [exec_running h] at hr
  simp_all

theorem exec_wf (h : exec i s = .next t) (hw : Memory.wf s.mem) : Memory.wf t.mem := by
  obtain rfl := (exec_next_iff i s t).1 h
  simpa [executed] using effect_wf _ _ _ (advance i.mode.tag s) hw

theorem exec_inSpace (h : exec i s = .next t) (hm : Memory.inSpace s.cfg.bus s.mem) :
    Memory.inSpace t.cfg.bus t.mem := by
  rw [exec_cfg h]
  obtain rfl := (exec_next_iff i s t).1 h
  simpa [executed] using effect_inSpace _ _ _ (advance i.mode.tag s) hm

/-- PC ends on the bus wherever it was before: the advance to `PC_next` reduces it (R27, R28). -/
theorem exec_pc_lt (h : exec i s = .next t) : t.pc.toNat < t.cfg.bus.size := by
  have hpc : (advance i.mode.tag s).pc.toNat < s.cfg.bus.size := s.cfg.bus.addr_lt _
  rw [exec_cfg h]
  obtain rfl := (exec_next_iff i s t).1 h
  simpa [executed] using effect_pc_lt _ _ _ (advance i.mode.tag s) (resolve_ea_lt _ _) hpc

theorem inv_of_exec (h : exec i s = .next t) (hi : Inv s) : Inv t where
  memWf := exec_wf h hi.memWf
  memInSpace := exec_inSpace h hi.memInSpace
  pcInSpace := exec_pc_lt h
  runningNoFault := fault_eq_none_of_running h
  cyclesFit := by rw [exec_cfg h, exec_cycleCount h, Config.wrapCycles_wrapCycles]

/-- The step of an unrecognised byte writes PC and the counter alone (R116). -/
theorem inv_unrecognised (hi : Inv s) : Inv (unrecognised s) where
  memWf := hi.memWf
  memInSpace := hi.memInSpace
  pcInSpace := s.cfg.bus.addr_lt _
  runningNoFault := hi.runningNoFault
  cyclesFit := by simp [unrecognised]

end OneInstruction

/-- Settles O15: a step is an instruction or the step of an unrecognised byte, and both keep the invariant. -/
theorem stepKeepsTheInvariant : Obligations.StepKeepsTheInvariant := by
  intro s t hi h
  obtain ⟨-, ⟨i, he⟩ | rfl⟩ := step_next s h
  · exact inv_of_exec he hi
  · exact inv_unrecognised hi

/-- Settles O17, by the inversion of `step`. -/
theorem stepNeverChangesParameters : Obligations.StepNeverChangesParameters := by
  intro s t h
  obtain ⟨-, ⟨i, he⟩ | rfl⟩ := step_next s h
  · exact exec_cfg he
  · rfl

/-! ## Halting -/

theorem mnemonic_eq_brk_iff (i : Instr) : i.mnemonic = .brk ↔ i = .brk := by
  cases i <;> simp [Instr.mnemonic]

theorem stepEnd_eq_fault_iff (t : State) :
    stepEnd t = .halted .fault ↔ t.running = false ∧ t.fault = .outOfBoundsWrite := by
  cases hr : t.running <;> cases hf : t.fault <;> simp [stepEnd, hr, hf]

theorem stepEnd_eq_brk_iff (t : State) : stepEnd t = .halted .brk ↔ t.running = false ∧ t.fault = .none := by
  cases hr : t.running <;> cases hf : t.fault <;> simp [stepEnd, hr, hf]

theorem stepEnd_eq_goesOn_iff (t : State) : stepEnd t = .goesOn ↔ t.running = true := by
  cases hr : t.running <;> cases hf : t.fault <;> simp [stepEnd, hr, hf]

/-- Settles O12: `exec_running` gives the three ways to be halted, and `stepEnd` reads `running` and `fault`. -/
theorem haltCausesAndReasons : Obligations.HaltCausesAndReasons := by
  intro i s t hr hf h
  have hrun := exec_running h
  rw [stepEnd_eq_fault_iff, stepEnd_eq_brk_iff, stepEnd_eq_goesOn_iff, hrun, hr, ← mnemonic_eq_brk_iff]
  cases t.fault <;> simp

/-- Settles O13: `exec_running` is a conjunction of `running` before and no fault after. -/
theorem faultStaysAndHalts : Obligations.FaultStaysAndHalts := by
  intro i s t h
  refine ⟨fun hr => ?_, exec_keeps_fault h, fun hf => ?_⟩
  · rw [exec_running h] at hr
    simp_all
  · simp [exec_running h, hf]

/-! ## Reset -/

/-- Settles O16: an empty memory, PC read as an address of the bus, no fault, a counter of 0. -/
theorem resetMeetsTheInvariant : Obligations.ResetMeetsTheInvariant where
  memWf := Memory.wf_empty
  memInSpace := by simp [State.reset, Memory.empty, Memory.inSpace]
  pcInSpace := BusWidth.addr_lt _ _
  runningNoFault _ := rfl
  cyclesFit := rfl

/-- Settles O33: `resetEngine` writes these fields by definition, and `resetEngine_eq_reset` is its second half. -/
theorem resetSetsEveryRegister : Obligations.ResetSetsEveryRegister :=
  ⟨fun _ => rfl, fun s hc hm => resetEngine_eq_reset s hm hc⟩

/-! ## What each mnemonic can do to the flags (R32) -/

/-- The ways the execute phases write the flags. -/
inductive FlagRule
  | keeps | zn | add | compare | bit | shift | carry | interrupt | decimal | overflow | breakTaken | pulled

/-- The way of each mnemonic. -/
def flagRule : Mnemonic → FlagRule
  | .lda | .ldx | .ldy | .and | .ora | .eor | .inc | .dec | .inx | .iny | .dex | .dey | .tax | .tay | .txa | .tya
  | .tsx | .pla => .zn
  | .adc | .sbc => .add
  | .cmp | .cpx | .cpy => .compare
  | .bit => .bit
  | .asl | .lsr | .rol | .ror => .shift
  | .clc | .sec => .carry
  | .cli | .sei => .interrupt
  | .cld | .sed => .decimal
  | .clv => .overflow
  | .brk => .breakTaken
  | .plp | .rti => .pulled
  | .sta | .stx | .sty | .txs | .pha | .php | .nop | .bcc | .bcs | .beq | .bne | .bmi | .bpl | .bvc | .bvs
  | .jmp | .jsr | .rts => .keeps

/-- `FlagChange r f g`: a mnemonic of rule `r` can turn the flags `f` into `g`. -/
inductive FlagChange (f : Flags) : FlagRule → Flags → Prop
  | keeps : FlagChange f .keeps f
  | zn (v : Byte) : FlagChange f .zn (Flags.setZN v f)
  | add (a v : Byte) : FlagChange f .add (Flags.afterAdd a v f)
  | compare (r v : Byte) : FlagChange f .compare (Flags.afterCompare r v f)
  | bit (a v : Byte) : FlagChange f .bit (Flags.afterBit a v f)
  | shift (out : Bool) (r : Byte) : FlagChange f .shift (Flags.afterShift out r f)
  | carry (b : Bool) : FlagChange f .carry { f with c := b }
  | interrupt (b : Bool) : FlagChange f .interrupt { f with i := b }
  | decimal (b : Bool) : FlagChange f .decimal { f with d := b }
  | overflow (b : Bool) : FlagChange f .overflow { f with v := b }
  | breakTaken : FlagChange f .breakTaken { f with b := true }
  | pulled (p : Byte) : FlagChange f .pulled (Flags.ofByte p)

/-- A branch changes PC at most. -/
theorem ite_setPc (b : Bool) (a : Addr) (s : State) :
    (if b then s.setPc a else s) = s.setPc (if b then a else s.pc) := by
  cases b <;> rfl

/-- Every execute phase changes the flags by its mnemonic's rule. -/
theorem effect_flagChange (m : Mnemonic) (o : Operand) (p : Addr) (s : State) :
    FlagChange s.flags (flagRule m) (effect m o p s).flags := by
  cases m
  case sta | stx | sty | pha | php | jsr =>
    simp only [effect, sta, stx, sty, pha, php, jsr, pushAddr, memWrite_flags, push_flags, pushAll_flags,
      State.setPc_flags]
    constructor
  case asl | lsr | rol | ror | inc | dec =>
    simp only [effect, asl, lsr, rol, ror, inc, dec, shiftInto, writeBack_flags, State.setFlags_flags, setZN_flags]
    constructor
  case bcc | bcs | beq | bne | bmi | bpl | bvc | bvs =>
    simp only [effect, ite_setPc, State.setPc_flags]
    constructor
  case rts | rti | brk =>
    simp only [effect, rts, rti, brk, returnFromBreak, popAddr_eq, powerOff_flags, takeBreak_eq]
    constructor
  all_goals constructor

section FlagFrame

variable {f g : Flags} {r : FlagRule}

theorem FlagChange.c_eq (h : FlagChange f r g) (hr : r ∉ [.add, .compare, .shift, .carry, .pulled]) : g.c = f.c := by
  cases h
  case add | compare | shift | carry | pulled => simp at hr
  all_goals rfl

theorem FlagChange.zn_eq (h : FlagChange f r g) (hr : r ∉ [.zn, .add, .compare, .bit, .shift, .pulled]) :
    g.z = f.z ∧ g.n = f.n := by
  cases h
  case zn | add | compare | bit | shift | pulled => simp at hr
  all_goals exact ⟨rfl, rfl⟩

theorem FlagChange.i_eq (h : FlagChange f r g) (hr : r ∉ [.interrupt, .pulled]) : g.i = f.i := by
  cases h
  case interrupt | pulled => simp at hr
  all_goals rfl

theorem FlagChange.d_eq (h : FlagChange f r g) (hr : r ∉ [.decimal, .pulled]) : g.d = f.d := by
  cases h
  case decimal | pulled => simp at hr
  all_goals rfl

theorem FlagChange.b_eq (h : FlagChange f r g) (hr : r ∉ [.breakTaken, .pulled]) : g.b = f.b := by
  cases h
  case breakTaken | pulled => simp at hr
  all_goals rfl

theorem FlagChange.v_eq (h : FlagChange f r g) (hr : r ∉ [.add, .bit, .overflow, .pulled]) : g.v = f.v := by
  cases h
  case add | bit | overflow | pulled => simp at hr
  all_goals rfl

end FlagFrame

theorem exec_flagChange {i : Instr} {s t : State} (h : exec i s = .next t) :
    FlagChange s.flags (flagRule i.mnemonic) t.flags := by
  obtain rfl := (exec_next_iff i s t).1 h
  simpa [executed] using effect_flagChange i.mnemonic _ s.pc (advance i.mode.tag s)

theorem exec_flags_i {i : Instr} {s t : State} (h : exec i s = .next t) (hm : i.mnemonic ∉ [.cli, .sei, .plp, .rti]) :
    t.flags.i = s.flags.i := by
  refine (exec_flagChange h).i_eq ?_
  revert hm
  cases i.mnemonic <;> simp [flagRule]

theorem exec_flags_d {i : Instr} {s t : State} (h : exec i s = .next t) (hm : i.mnemonic ∉ [.cld, .sed, .plp, .rti]) :
    t.flags.d = s.flags.d := by
  refine (exec_flagChange h).d_eq ?_
  revert hm
  cases i.mnemonic <;> simp [flagRule]

/-- Settles O22: a mnemonic outside R32's list for a flag has a rule that keeps the flag. -/
theorem flagsChangeOnlyUnderTheirWriters : Obligations.FlagsChangeOnlyUnderTheirWriters := by
  intro i s t h
  have hf := exec_flagChange h
  refine ⟨fun hm => hf.c_eq ?_, fun hm => hf.zn_eq ?_, exec_flags_i h, exec_flags_d h, fun hm => hf.b_eq ?_,
    fun hm => hf.v_eq ?_⟩
  all_goals
    revert hm
    cases i.mnemonic <;> simp [flagRule]

/-! ## What each mnemonic can do to the registers and memory (R22 to R25, R66) -/

/-- Where the execute phases write, PC and the flags apart. -/
inductive WriteRule
  | nothing | accumulator | indexX | indexY | stackPointer | pullA | store | operand | push

/-- Where each mnemonic writes. -/
def writeRule : Mnemonic → WriteRule
  | .lda | .adc | .sbc | .and | .ora | .eor | .txa | .tya => .accumulator
  | .ldx | .inx | .dex | .tax | .tsx => .indexX
  | .ldy | .iny | .dey | .tay => .indexY
  | .txs | .plp | .rts | .rti => .stackPointer
  | .pla => .pullA
  | .sta | .stx | .sty => .store
  | .asl | .lsr | .rol | .ror | .inc | .dec => .operand
  | .pha | .php | .jsr | .brk => .push
  | .cmp | .cpx | .cpy | .bit | .clc | .sec | .cli | .sei | .cld | .sed | .clv | .nop
  | .bcc | .bcs | .beq | .bne | .bmi | .bpl | .bvc | .bvs | .jmp => .nothing

/-- `StateChange o s r t`: a mnemonic of rule `r` on the operand `o` can take the state `s` to `t`. -/
inductive StateChange (o : Operand) (s : State) : WriteRule → State → Prop
  | nothing (p : Addr) (f : Flags) : StateChange o s .nothing { s with pc := p, flags := f }
  | accumulator (v : Byte) (f : Flags) : StateChange o s .accumulator { s with a := v, flags := f }
  | indexX (v : Byte) (f : Flags) : StateChange o s .indexX { s with x := v, flags := f }
  | indexY (v : Byte) (f : Flags) : StateChange o s .indexY { s with y := v, flags := f }
  | stackPointer (v : Byte) (p : Addr) (f : Flags) :
    StateChange o s .stackPointer { s with sp := v, pc := p, flags := f }
  | pullA (v w : Byte) (f : Flags) : StateChange o s .pullA { s with sp := v, a := w, flags := f }
  | store (a : Nat) (v : Byte) : StateChange o s .store (memWrite a v s)
  | operand (v : Byte) (f : Flags) : StateChange o s .operand { writeBack o v s with flags := f }
  | push (vs : List Byte) (p : Addr) (f : Flags) (r : Bool) :
    StateChange o s .push { pushAll vs s with pc := p, flags := f, running := r }

theorem powerOff_eq (s : State) : powerOff s = s.setRunning (s.running && !s.cfg.brkHalts) := by
  cases h : s.cfg.brkHalts <;> simp [powerOff, h, State.setRunning]

/-- Every execute phase changes the state by its mnemonic's rule. -/
theorem effect_stateChange (m : Mnemonic) (o : Operand) (p : Addr) (s : State) :
    StateChange o s (writeRule m) (effect m o p s) := by
  cases m
  case bcc | bcs | beq | bne | bmi | bpl | bvc | bvs =>
    rw [effect, ite_setPc]
    constructor
  case pha => exact .push [s.a] _ _ _
  case php => exact .push [getPS s] _ _ _
  case jsr => exact .push _ _ _ _
  case rts =>
    simp only [effect, rts, popAddr_eq]
    constructor
  case rti =>
    simp only [effect, rti, returnFromBreak, popAddr_eq]
    constructor
  case brk =>
    rw [effect, brk, takeBreak_eq, powerOff_eq]
    exact .push _ _ _ _
  all_goals constructor

section RegisterFrame

variable {o : Operand} {s t : State} {r : WriteRule}

theorem StateChange.a_eq (h : StateChange o s r t) (hr : r ∉ [.accumulator, .pullA]) (ho : o ≠ .acc) : t.a = s.a := by
  cases h
  case accumulator | pullA => simp at hr
  case store => exact memWrite_a ..
  case operand => cases o <;> simp [writeBack] at ho ⊢
  case push => exact pushAll_a ..
  all_goals rfl

theorem StateChange.x_eq (h : StateChange o s r t) (hr : r ≠ .indexX) : t.x = s.x := by
  cases h
  case indexX => simp at hr
  case store => exact memWrite_x ..
  case operand => exact writeBack_x ..
  case push => exact pushAll_x ..
  all_goals rfl

theorem StateChange.y_eq (h : StateChange o s r t) (hr : r ≠ .indexY) : t.y = s.y := by
  cases h
  case indexY => simp at hr
  case store => exact memWrite_y ..
  case operand => exact writeBack_y ..
  case push => exact pushAll_y ..
  all_goals rfl

theorem StateChange.sp_eq (h : StateChange o s r t) (hr : r ∉ [.stackPointer, .pullA, .push]) : t.sp = s.sp := by
  cases h
  case stackPointer | pullA | push => simp at hr
  case store => exact memWrite_sp ..
  case operand => exact writeBack_sp ..
  all_goals rfl

theorem StateChange.mem_fault_eq (h : StateChange o s r t) (hr : r ∉ [.store, .operand, .push]) :
    t.mem = s.mem ∧ t.fault = s.fault := by
  cases h
  case store | operand | push => simp at hr
  all_goals exact ⟨rfl, rfl⟩

end RegisterFrame

theorem resolve_eq_acc_iff (m : AddressingMode) (s : State) : resolve m s = .acc ↔ m = .accumulator := by
  cases m <;> simp [resolve]

/-- Settles O23: a mnemonic outside the list for a register has a rule that keeps it. -/
theorem registersAndMemoryChangeOnlyUnderTheirWriters :
    Obligations.RegistersAndMemoryChangeOnlyUnderTheirWriters := by
  intro i s t h
  obtain rfl := (exec_next_iff i s t).1 h
  have hc := effect_stateChange i.mnemonic (resolve i.mode (advance i.mode.tag s)) s.pc (advance i.mode.tag s)
  simp only [retire_a, retire_x, retire_y, retire_sp, retire_mem, retire_fault, executed]
  refine ⟨fun hm ho => hc.a_eq ?_ (by rwa [ne_eq, resolve_eq_acc_iff]), fun hm => hc.x_eq ?_, fun hm => hc.y_eq ?_,
    fun hm => hc.sp_eq ?_, fun hm => hc.mem_fault_eq ?_⟩
  all_goals
    revert hm
    cases i.mnemonic <;> simp [writeRule]

/-! ## PC -/

/-- `branchTaken` reads the same flag as `taken`. -/
theorem branchTaken_eq_taken (i : Instr) (s : State) : branchTaken i s.flags = taken i.mnemonic s := by
  unfold branchTaken taken
  cases i.mnemonic <;> rfl

@[simp] theorem operandBytes_length (bus : BusWidth) (m : AddressingMode) :
    (m.operandBytes bus).length = m.tag.nbytes bus := by
  cases m with
  | memory m => cases m <;> simp [AddressingMode.operandBytes, AddressingMode.tag, MemMode.tag, ModeTag.nbytes]
  | implied | accumulator | immediate v => rfl

theorem encode_length (bus : BusWidth) (i : Instr) : (encode bus i).length = i.mode.tag.nbytes bus + 1 := by
  simp [encode]

/-- The execute phase writes PC for a jump, a call, a return, BRK or a taken branch alone (R29). -/
theorem effect_pc_of_not_taken {m : Mnemonic} (hm : m ∉ [.jmp, .jsr, .rts, .brk, .rti]) {s : State}
    (ht : taken m s = false) (o : Operand) (p : Addr) : (effect m o p s).pc = s.pc := by
  by_cases hs : setsPc m = true
  · cases m <;> simp [setsPc] at hs hm
    all_goals simp_all [taken, effect]
  · exact effect_pc m o p s (by simpa using hs)

/-- Settles O24: PC is `PC_next`, and the length of an encoding is 1 and the operand bytes of the mode. -/
theorem otherInstructionsLeavePcNext : Obligations.OtherInstructionsLeavePcNext := by
  intro i s t h hm hb
  obtain rfl := (exec_next_iff i s t).1 h
  rw [branchTaken_eq_taken] at hb
  have hpc := effect_pc_of_not_taken (s := advance i.mode.tag s) hm hb (resolve i.mode (advance i.mode.tag s)) s.pc
  rw [retire_pc, executed, hpc, encode_length, advance_pc, State.addr_eq]
  congr 1
  omega

/-! ## What no instruction reads: the counter, I and D -/

/-- The state with another cycle count, another I and another D. -/
def withUnread (n : Nat) (i d : Bool) (s : State) : State :=
  { s with cycleCount := n, flags := { s.flags with i := i, d := d } }

section Unread

variable (n : Nat) (i d : Bool) (s : State)

theorem withUnread_advance (t : ModeTag) : advance t (withUnread n i d s) = withUnread n i d (advance t s) := rfl

theorem memWrite_withUnread (a : Nat) (v : Byte) :
    memWrite a v (withUnread n i d s) = withUnread n i d (memWrite a v s) := by
  cases h : s.cfg.isWritable (s.cfg.bus.addr a) <;>
    simp [memWrite, h, withUnread, State.setMem, State.setFault]

theorem writeBack_withUnread (o : Operand) (v : Byte) :
    writeBack o v (withUnread n i d s) = withUnread n i d (writeBack o v s) := by
  cases o with
  | addr ea => exact memWrite_withUnread ..
  | _ => rfl

theorem push_withUnread (v : Byte) : push v (withUnread n i d s) = withUnread n i d (push v s) := by
  have h := memWrite_withUnread n i d s (stackAddr s.sp) v
  simp only [push, withUnread] at h ⊢
  rw [h]
  rfl

theorem pushAll_withUnread (vs : List Byte) :
    pushAll vs (withUnread n i d s) = withUnread n i d (pushAll vs s) := by
  induction vs generalizing s with
  | nil => rfl
  | cons v vs ih => rw [pushAll, push_withUnread, ih, pushAll]

theorem operandValue_withUnread (o : Operand) : operandValue o (withUnread n i d s) = operandValue o s :=
  operandValue_congr o rfl rfl rfl

theorem resolve_withUnread (m : AddressingMode) : resolve m (withUnread n i d s) = resolve m s :=
  resolve_congr m rfl rfl rfl rfl rfl

/-- The execute phase carries the three over, but for I and D where the mnemonic writes them; PHP and BRK, which push
the status byte, only from the same I and D. -/
theorem effect_withUnread (m : Mnemonic) (o : Operand) (p : Addr)
    (hps : m ∈ [.php, .brk] → i = s.flags.i ∧ d = s.flags.d) :
    effect m o p (withUnread n i d s) =
      withUnread n (if m ∈ [.cli, .sei, .plp, .rti] then (effect m o p s).flags.i else i)
        (if m ∈ [.cld, .sed, .plp, .rti] then (effect m o p s).flags.d else d) (effect m o p s) := by
  cases m
  -- decide for each mnemonic whether it writes I or D
  all_goals simp only [List.mem_cons, reduceCtorEq, List.not_mem_nil, or_false, or_true, or_self, if_true, if_false]
  case sta | stx | sty => exact memWrite_withUnread ..
  case asl | lsr | rol | ror | inc | dec =>
    simp only [effect, asl, lsr, rol, ror, inc, dec, shiftInto, operandValue_withUnread, writeBack_withUnread]
    rfl
  case bcc | bcs | beq | bne | bmi | bpl | bvc | bvs =>
    simp only [effect, ite_setPc]
    rfl
  case pha => exact push_withUnread ..
  case php =>
    obtain ⟨rfl, rfl⟩ := hps (by simp)
    exact push_withUnread ..
  case jsr =>
    simp only [effect, jsr, pushAddr, pushAll_withUnread]
    rfl
  case rts | rti =>
    simp only [effect, rts, rti, returnFromBreak, popAddr_eq]
    rfl
  case brk =>
    obtain ⟨rfl, rfl⟩ := hps (by simp)
    simp only [effect, brk, powerOff_eq, takeBreak_eq, pushAll_withUnread]
    rfl
  all_goals rfl

theorem executed_withUnread (j : Instr) (hps : j.mnemonic ∈ [.php, .brk] → i = s.flags.i ∧ d = s.flags.d) :
    executed j (withUnread n i d s) =
      withUnread n (if j.mnemonic ∈ [.cli, .sei, .plp, .rti] then (executed j s).flags.i else i)
        (if j.mnemonic ∈ [.cld, .sed, .plp, .rti] then (executed j s).flags.d else d) (executed j s) := by
  rw [executed, withUnread_advance, resolve_withUnread]
  exact effect_withUnread n i d (advance j.mode.tag s) _ _ _ hps

theorem taken_withUnread (m : Mnemonic) : taken m (withUnread n i d s) = taken m s := by
  cases m <;> rfl

theorem retire_withUnread (cost : Nat) (b : Bool) :
    retire cost b (withUnread n i d s) =
      withUnread (s.cfg.wrapCycles (n + (cost + bitNat b))) i d (retire cost b s) := by
  cases h : s.fault <;>
    simp [retire, haltOnFault, addCycles, withUnread, h, State.setCycleCount, State.setRunning]

/-- From the state with another count, I and D, an instruction does what it did, but for those three. -/
theorem exec_withUnread {j : Instr} {s t : State} (h : exec j s = .next t)
    (hps : j.mnemonic ∈ [.php, .brk] → i = s.flags.i ∧ d = s.flags.d) :
    exec j (withUnread n i d s) =
      .next (withUnread (s.cfg.wrapCycles (n + (j.baseCycles + bitNat (taken j.mnemonic s))))
        (if j.mnemonic ∈ [.cli, .sei, .plp, .rti] then t.flags.i else i)
        (if j.mnemonic ∈ [.cld, .sed, .plp, .rti] then t.flags.d else d) t) := by
  obtain rfl := (exec_next_iff j s t).1 h
  rw [exec_eq, executed_withUnread n i d s j hps, taken_withUnread, retire_withUnread]
  simp only [retire_flags, executed, effect_cfg, advance_cfg]

end Unread

section Unwritten

variable {j : Instr} {s t : State}

theorem flags_i_of_exec (h : exec j s = .next t) :
    (if j.mnemonic ∈ [.cli, .sei, .plp, .rti] then t.flags.i else s.flags.i) = t.flags.i :=
  ite_eq_left_iff.2 fun hm => (exec_flags_i h hm).symm

theorem flags_d_of_exec (h : exec j s = .next t) :
    (if j.mnemonic ∈ [.cld, .sed, .plp, .rti] then t.flags.d else s.flags.d) = t.flags.d :=
  ite_eq_left_iff.2 fun hm => (exec_flags_d h hm).symm

end Unwritten

/-- Settles O19: `exec_withUnread` with the state's own count and I, which are then those of the end. -/
theorem decimalFlagGatesNothing : Obligations.DecimalFlagGatesNothing := by
  intro j s t d hphp hbrk h
  have hu := exec_withUnread s.cycleCount s.flags.i d h (by simp [hphp, hbrk])
  rw [flags_i_of_exec h, ← exec_cycleCount h] at hu
  exact hu

/-- Settles O20: `exec_withUnread` with the state's own count and D. -/
theorem interruptFlagGatesNothing : Obligations.InterruptFlagGatesNothing := by
  intro j s t i hphp hbrk h
  have hu := exec_withUnread s.cycleCount i s.flags.d h (by simp [hphp, hbrk])
  rw [flags_d_of_exec h, ← exec_cycleCount h] at hu
  exact hu

/-- Settles O21: `exec_withUnread` with the state's own I and D, so PHP and BRK push the same status byte. -/
theorem cycleCountGatesNothing : Obligations.CycleCountGatesNothing := by
  intro j s t n h
  have hu := exec_withUnread n s.flags.i s.flags.d h fun _ => ⟨rfl, rfl⟩
  rw [flags_i_of_exec h, flags_d_of_exec h] at hu
  exact ⟨_, hu⟩

/-! ## The status byte (R33 to R35) -/

theorem getElem_flagBit (b : Bool) (k j : Nat) (hj : j < 8) : (flagBit b k)[j] = (b && decide (j = k)) := by
  cases b
  · simp [flagBit, bitNat]
  · rw [Bool.eq_iff_iff]
    simp only [flagBit, bitNat, ↓reduceIte, BitVec.getElem_shiftLeft, BitVec.getElem_one, Bool.and_eq_true,
      Bool.not_eq_eq_eq_not, Bool.not_true, decide_eq_false_iff_not, not_lt, decide_eq_true_eq, Bool.true_and]
    omega

/-- Each bit of the status byte is the flag that R34 reads from it. -/
theorem ofByte_getPS (s : State) : Flags.ofByte (getPS s) = s.flags := by
  simp [Flags.ofByte, getPS, getElem_flagBit]

/-- The bits of R33 do not overlap, so their union is their sum. -/
theorem flagBits_eq_statusByte : ∀ c z i d b r v n : Bool,
    flagBit c 0 ||| flagBit z 1 ||| flagBit i 2 ||| flagBit d 3 ||| flagBit b 4 ||| flagBit r 5 ||| flagBit v 6 |||
      flagBit n 7 = statusByte ⟨c, z, i, d, b, v, n⟩ r := by
  decide

theorem getLsbD_eq_decide (p : Byte) (k : Nat) : p.getLsbD k = decide (p.toNat / 2 ^ k % 2 = 1) := by
  rw [BitVec.getLsbD, Nat.testBit_eq_decide_div_mod_eq]

theorem ofByte_eq_statusFlags (p : Byte) : Flags.ofByte p = statusFlags p := by
  simp only [Flags.ofByte, statusFlags, getLsbD_eq_decide]
  simp

/-- Settles O28, by `ofByte_getPS`. -/
theorem statusByteRoundTrip : Obligations.StatusByteRoundTrip := ofByte_getPS

/-- Settles O29: each half read bit by bit. -/
theorem statusByteLayout : Obligations.StatusByteLayout := by
  intro s p
  refine ⟨flagBits_eq_statusByte .., ?_⟩
  rw [← ofByte_eq_statusFlags]
  rfl

end Sys2Proof.Proofs
end

section
/-! SUPPORT. What a step writes, what a read sees of it, and how a stack is popped; the statements of 20_memory.md. -/

namespace Sys2Proof.Proofs

open Sys2Proof.Machine Sys2Proof.Claims

/-! ## Protected bytes (R56, R75) -/

/-- A write reaches no byte at a non-writable address, whatever address it asks for (R56). -/
theorem memWrite_byteAt_protected {s : State} (hm : Memory.wf s.mem) {b : Addr} (hb : s.cfg.isWritable b = false)
    (a : Nat) (v : Byte) : (memWrite a v s).byteAt b = s.byteAt b := by
  rw [memWrite_byteAt s a v b hm, if_neg]
  rintro ⟨rfl, hw⟩
  simp [hw] at hb

/-- Memory changes by `memWrite` alone, so every execute phase keeps canonical memory and a protected byte of it. -/
theorem effect_byteAt_protected (m : Mnemonic) (o : Operand) (p : Addr) {s : State} (hm : Memory.wf s.mem) {b : Addr}
    (hb : s.cfg.isWritable b = false) : (effect m o p s).byteAt b = s.byteAt b := by
  refine (effect_mem_induct m o p s (fun mem => Memory.wf mem ∧ Memory.read mem b.toNat = s.byteAt b)
    (fun t a v hc ⟨ht, hr⟩ => ⟨memWrite_wf t a v ht, ?_⟩) ⟨hm, rfl⟩).2
  rw [← hc] at hb
  exact (memWrite_byteAt_protected ht hb a v).trans hr

theorem exec_byteAt_protected {i : Instr} {s t : State} (h : exec i s = .next t) (hm : Memory.wf s.mem) {b : Addr}
    (hb : s.cfg.isWritable b = false) : t.byteAt b = s.byteAt b := by
  obtain rfl := (exec_next_iff i s t).1 h
  simpa [executed, State.byteAt] using effect_byteAt_protected i.mnemonic _ s.pc (s := advance i.mode.tag s) hm hb

/-- Settles O18: a step is an instruction, or the step of an unrecognised byte, which writes no memory. -/
theorem protectedBytesNeverChange : Obligations.ProtectedBytesNeverChange := by
  intro s t hm h b hb
  obtain ⟨-, ⟨i, he⟩ | rfl⟩ := step_next s h
  · exact exec_byteAt_protected he hm hb
  · rfl

/-! ## Reading after a write (R55 to R57) -/

/-- What a read sees after a write: the written byte at the same address where that is writable, else the old one. -/
theorem memRead_memWrite {s : State} (hm : Memory.wf s.mem) (a b : Nat) (v : Byte) :
    memRead b (memWrite a v s) =
      if s.addr b = s.addr a ∧ s.cfg.isWritable (s.addr a) = true then v else memRead b s := by
  simp only [memRead_eq, memWrite_cfg, State.addr_eq]
  exact memWrite_byteAt s a v _ hm

/-- Settles O25: `memRead_memWrite` at a writable address, `memWrite_protected` at another. -/
theorem writeIsSeenByTheNextRead : Obligations.WriteIsSeenByTheNextRead := by
  intro s a v hm
  refine ⟨fun hw => ⟨?_, ?_, fun b hb => ?_⟩, memWrite_protected s a v⟩
  · rw [memRead_memWrite hm, if_pos ⟨rfl, hw⟩]
  · exact (memWrite_fault s a v).trans (if_pos hw)
  · rw [memRead_memWrite hm, if_neg (fun h => hb h.1)]

/-! ## Reading an address (R58) -/

/-- `AB` bytes write a number of the bus, so the reduction of `ReadAddr` loses nothing. -/
theorem readAddr_toNat (p : Nat) (s : State) :
    (readAddr p s).toNat = leNat ((List.range s.cfg.bus.bytes).map fun k => s.byteAt (s.addr (p + k))) := by
  refine (BusWidth.addr_toNat _ _).trans (Nat.mod_eq_of_lt ?_)
  rw [BusWidth.size_eq]
  exact (leNat_lt _).trans_eq (by simp)

/-- Settles O26: `readAddr_toNat` with the two or three bytes written out. -/
theorem readAddrIsLittleEndian : Obligations.ReadAddrIsLittleEndian := by
  intro s p
  rw [readAddr_toNat]
  refine ⟨fun hbus => ?_, fun hbus => ?_⟩
  all_goals
    rw [hbus]
    simp only [BusWidth.bytes, List.range_succ, List.range_zero, List.nil_append, List.cons_append, List.map_cons,
      List.map_nil, leNat, Nat.add_zero]
    omega

/-! ## The stack (R61 to R63) -/

/-- The byte that the pop after `k` others reads, once `vs` is pushed: the `k`-th from the end of `vs` (R62). -/
theorem memRead_pushAll {s : State} {vs : List Byte} (hm : Memory.wf s.mem) (hw : StackWritable s)
    (hl : vs.length ≤ 256) {k : Nat} (hk : k < vs.length) :
    memRead (stackAddr ((pushAll vs s).sp + BitVec.ofNat 8 (k + 1))) (pushAll vs s) = vs[vs.length - 1 - k] := by
  have hslot : (pushAll vs s).sp + BitVec.ofNat 8 (k + 1) = s.sp - BitVec.ofNat 8 (vs.length - 1 - k) := by
    rw [pushAll_sp]
    bv_omega
  rw [hslot, memRead_eq, pushAll_cfg]
  exact pushAll_byteAt s vs _ (by omega) hl hm (hw _)

/-- Settles O27: popping reads the slots upwards from the last byte pushed. -/
theorem pushedBytesPopInReverse : Obligations.PushedBytesPopInReverse := by
  intro s vs hm hw hl
  rw [popAll_eq]
  refine ⟨List.ext_getElem (by simp) fun k hk _ => ?_, by simp⟩
  have hk : k < vs.length := by simpa using hk
  simpa using memRead_pushAll hm hw hl hk

end Sys2Proof.Proofs
end

section
/-! SUPPORT. Decoding and encoding as one equivalence, the bytes at PC, and the displacement of a branch; the statements of
30_encoding.md. -/

namespace Sys2Proof.Proofs

open Sys2Proof.Machine Sys2Proof.Claims

/-! ## Decoding (R80 to R89) -/

/-- The instructions a row's format makes. -/
def makes : Format → Instr → Prop
  | .f0 j, i => j = i
  | .f1 make, i => ∃ b, make b = i
  | .fa make, i => ∃ a, make a = i

theorem makes_of_builds {i : Instr} {f : Format} (h : Laws.TableRow.Builds i f) : makes f i := by
  unfold Laws.TableRow.Builds at h
  split at h
  case h_1 | h_2 => exact h
  case h_14 => exact h.elim
  all_goals exact ⟨_, h⟩

/-- An address of the bus is what its operand bytes write (R86). -/
theorem addr_leNat_leBytes {bus : BusWidth} {a : Addr} (ha : a.toNat < bus.size) :
    bus.addr (leNat (leBytes bus.bytes a.toNat)) = a := by
  rw [leNat_leBytes, ← BusWidth.size_eq, Nat.mod_eq_of_lt ha, bus.addr_of_lt a ha]

/-- `AB` bytes are the operand bytes of the address they write (R86). -/
theorem leBytes_addr_leNat {bus : BusWidth} {bytes : List Byte} (hl : bytes.length = bus.bytes) :
    leBytes bus.bytes (bus.addr (leNat bytes)).toNat = bytes := by
  have hlt := leNat_lt bytes
  rw [hl, ← BusWidth.size_eq] at hlt
  rw [BusWidth.addr_toNat, Nat.mod_eq_of_lt hlt, ← hl, leBytes_leNat]

theorem build_f1_eq_ok_iff (bus : BusWidth) (make : Byte → Instr) (bytes rest : List Byte) (i : Instr) :
    (Format.f1 make).build bus bytes = .ok (i, rest) ↔ ∃ b, make b = i ∧ b :: rest = bytes := by
  cases bytes with
  | nil => simp [Format.build]
  | cons b bytes => simp [Format.build, eq_comm]

theorem build_fa_eq_ok_iff (bus : BusWidth) (make : Addr → Instr) (bytes rest : List Byte) (i : Instr) :
    (Format.fa make).build bus bytes = .ok (i, rest) ↔
      ∃ a, make a = i ∧ a.toNat < bus.size ∧ leBytes bus.bytes a.toNat ++ rest = bytes := by
  constructor
  · intro h
    simp only [Format.build] at h
    split at h
    · cases h
    next hl =>
      cases h
      have htake : (bytes.take bus.bytes).length = bus.bytes := List.length_take_of_le (Nat.not_lt.1 hl)
      exact ⟨_, rfl, bus.addr_lt _, by rw [leBytes_addr_leNat htake, List.take_append_drop]⟩
  · rintro ⟨a, rfl, ha, rfl⟩
    simp [Format.build, -leNat_leBytes, addr_leNat_leBytes ha]

/-- A row's format builds an instruction from bytes exactly if it makes that instruction, the operand fits the bus and
the bytes begin with the operand's. -/
theorem build_eq_ok_iff {r : OpcodeRow} (hr : r.Sound) (bus : BusWidth) (bytes rest : List Byte) (i : Instr) :
    r.format.build bus bytes = .ok (i, rest) ↔
      makes r.format i ∧ i.wellFormed bus = true ∧ i.mode.operandBytes bus ++ rest = bytes := by
  obtain ⟨op, m, t, c, f⟩ := r
  cases f with
  | f0 j =>
    obtain ⟨hw, hb⟩ := hr.2 bus
    constructor
    · rintro ⟨⟩
      exact ⟨rfl, hw, by simp [hb]⟩
    · rintro ⟨rfl, -, rfl⟩
      simp [Format.build, hb]
  | f1 make =>
    have hb : ∀ b, (make b).mode.operandBytes bus = [b] := fun b => ((hr b).2 bus).2
    rw [build_f1_eq_ok_iff]
    constructor
    · rintro ⟨b, rfl, rfl⟩
      exact ⟨⟨b, rfl⟩, ((hr b).2 bus).1, by simp [hb]⟩
    · rintro ⟨⟨b, rfl⟩, -, rfl⟩
      exact ⟨b, rfl, by simp [hb]⟩
  | fa make =>
    have hw : ∀ a, (make a).wellFormed bus = true ↔ a.toNat < bus.size := fun a => ((hr a).2 bus).1
    have hb : ∀ a, (make a).mode.operandBytes bus = leBytes bus.bytes a.toNat := fun a => ((hr a).2 bus).2
    rw [build_fa_eq_ok_iff]
    constructor
    · rintro ⟨a, rfl, ha, rfl⟩
      exact ⟨⟨a, rfl⟩, (hw a).2 ha, by rw [hb]⟩
    · rintro ⟨⟨a, rfl⟩, ha, rfl⟩
      exact ⟨a, rfl, (hw a).1 ha, by rw [hb]⟩

theorem opcode_of_makes {r : OpcodeRow} (hr : r.Sound) {i : Instr} (hi : makes r.format i) : i.opcode = r.opcode := by
  obtain ⟨op, m, t, c, f⟩ := r
  cases f with
  | f0 j => cases hi; exact hr.1
  | f1 make => obtain ⟨b, rfl⟩ := hi; exact (hr b).1
  | fa make => obtain ⟨a, rfl⟩ := hi; exact (hr a).1

theorem tableLookup_eq_some {op : Byte} {r : OpcodeRow} (h : tableLookup op = some r) : r.Sound ∧ r.opcode = op :=
  ⟨opcodeTable_sound r (List.mem_of_find?_eq_some h), by simpa using List.find?_some h⟩

/-- Every instruction is made by the row under its opcode. -/
theorem exists_row (i : Instr) : ∃ r, tableLookup i.opcode = some r ∧ makes r.format i := by
  obtain ⟨⟨f, hf, hb⟩, -⟩ := Laws.TableRow.all i
  exact ⟨_, hf, makes_of_builds hb⟩

theorem decode_of_row {op : Byte} {r : OpcodeRow} (h : tableLookup op = some r) (bus : BusWidth) (bytes : List Byte) :
    decode bus (op :: bytes) = r.format.build bus bytes := by
  rw [decode, h]

theorem decode_of_no_row {op : Byte} (h : tableLookup op = none) (bus : BusWidth) (bytes : List Byte) :
    decode bus (op :: bytes) = .error (.unrecognised op) := by
  rw [decode, h]

/-- Decoding and encoding are inverse: bytes decode to an instruction and a rest exactly if the instruction exists on the
bus and the bytes are its encoding followed by the rest. -/
theorem decode_eq_ok_iff (bus : BusWidth) (bytes rest : List Byte) (i : Instr) :
    decode bus bytes = .ok (i, rest) ↔ i.wellFormed bus = true ∧ encode bus i ++ rest = bytes := by
  cases bytes with
  | nil => simp [decode, encode]
  | cons op bytes =>
    rw [encode, List.cons_append, List.cons.injEq]
    constructor
    · intro h
      cases hl : tableLookup op with
      | none =>
        rw [decode_of_no_row hl] at h
        cases h
      | some r =>
        obtain ⟨hr, hop⟩ := tableLookup_eq_some hl
        rw [decode_of_row hl, build_eq_ok_iff hr] at h
        obtain ⟨hm, hw, hb⟩ := h
        exact ⟨hw, (opcode_of_makes hr hm).trans hop, hb⟩
    · rintro ⟨hw, rfl, hb⟩
      obtain ⟨r, hl, hm⟩ := exists_row i
      rw [decode_of_row hl, build_eq_ok_iff (tableLookup_eq_some hl).1]
      exact ⟨hm, hw, hb⟩

/-- Settles O1: the encoding followed by `rest` satisfies `decode_eq_ok_iff`. -/
theorem decodeOfEncodeIsTheInstruction : Obligations.DecodeOfEncodeIsTheInstruction :=
  fun bus i rest hw => (decode_eq_ok_iff bus _ rest i).2 ⟨hw, rfl⟩

/-- Settles O2: the other direction of `decode_eq_ok_iff`. -/
theorem encodeOfDecodeIsTheBytes : Obligations.EncodeOfDecodeIsTheBytes :=
  fun bus bytes rest i => (decode_eq_ok_iff bus bytes rest i).1

/-- Settles O3: each word is the encoding of its instruction, and what is left over. -/
theorem spelledWordsDecode : Obligations.SpelledWordsDecode := by
  simp only [Obligations.SpelledWordsDecode, decode_eq_ok_iff]
  decide

/-! ## Unrecognised bytes (R98) -/

/-- Operand bytes can only be too few; which opcode is unrecognised, the table alone says. -/
theorem build_ne_unrecognised (bus : BusWidth) (f : Format) (bytes : List Byte) (op : Byte) :
    f.build bus bytes ≠ .error (.unrecognised op) := by
  cases f with
  | f0 i => simp [Format.build]
  | f1 make => cases bytes <;> simp [Format.build]
  | fa make =>
    simp only [Format.build]
    split <;> simp

theorem decode_eq_unrecognised_iff (bus : BusWidth) (op : Byte) (bytes : List Byte) :
    decode bus (op :: bytes) = .error (.unrecognised op) ↔ tableLookup op = none := by
  cases hl : tableLookup op with
  | none => simp [decode_of_no_row hl]
  | some r => simp [decode_of_row hl, build_ne_unrecognised]

/-- The bytes of R98 are the bytes without a row: the two lists are compared over all 256 bytes. -/
theorem not_mem_opcodes_iff : ∀ op : Byte, op ∉ opcodeTable.map (·.opcode) ↔ op ∈ unrecognisedBytes := by
  decide

theorem tableLookup_eq_none_iff (op : Byte) : tableLookup op = none ↔ op ∈ unrecognisedBytes := by
  rw [← not_mem_opcodes_iff]
  simp [tableLookup, List.find?_eq_none]

/-- Settles O4: `decode` answers unrecognised exactly where the table has no row. -/
theorem unrecognisedBytesAreThe105 : Obligations.UnrecognisedBytesAreThe105 :=
  fun bus op rest => (decode_eq_unrecognised_iff bus op rest).trans (tableLookup_eq_none_iff op)

/-! ## Lengths, and the bytes at PC (R82, R83) -/

/-- Settles O5: the table of R82 read off `nbytes`, and `encode_length`. -/
theorem instructionLengths : Obligations.InstructionLengths := by
  refine ⟨?_, ?_, ?_, fun bus i => (encode_length bus i).trans (Nat.add_comm _ 1)⟩
  all_goals simp [ModeTag.nbytes, BusWidth.bytes]

theorem nbytes_le (bus : BusWidth) (t : ModeTag) : t.nbytes bus ≤ bus.bytes := by
  cases t <;> cases bus <;> decide

theorem getElem_fetchBytes (s : State) (k : Nat) (hk : k < (fetchBytes s).length) :
    (fetchBytes s)[k] = s.byteAt (s.addr (s.pc.toNat + k)) := by
  simp [fetchBytes, memRead_eq]

/-- The step of a running engine is the meaning of what its bytes decode to (R112). -/
theorem step_of_decode {s : State} {i : Instr} {rest : List Byte} (hr : s.running = true)
    (hd : decode s.cfg.bus (fetchBytes s) = .ok (i, rest)) : step s = exec i s := by
  simp [step, hr, hd]

/-- Settles O7: the fetched bytes begin with the encoding, so they decode to the instruction. -/
theorem instructionBytesAtPcRun : Obligations.InstructionBytesAtPcRun := by
  intro s i hr hw hbytes
  have hbegin : encode s.cfg.bus i <+: fetchBytes s := by
    refine List.prefix_iff_getElem.2 ⟨?_, fun k hk => ?_⟩
    · simpa [encode_length] using nbytes_le s.cfg.bus i.mode.tag
    · rw [getElem_fetchBytes, hbytes k hk]
  obtain ⟨rest, hrest⟩ := hbegin
  exact step_of_decode hr ((decode_eq_ok_iff _ _ rest i).2 ⟨hw, hrest⟩)

/-! ## Cycles (R97, R117) -/

/-- Settles O14: `exec_cycleCount`, and the obligation's flag test is that of `taken`. -/
theorem cycleAccounting : Obligations.CycleAccounting := by
  intro i s t h
  rw [exec_cycleCount h, branchTaken_eq_taken, Nat.add_assoc]
  rfl

/-! ## Branches (R87, R145) -/

/-- The byte as a signed number (R87). -/
theorem disp_twosComplement (r : Byte) :
    RelMode.twosComplement.disp r = if r.toNat < 128 then (r.toNat : Int) else (r.toNat : Int) - 256 := by
  rw [RelMode.disp, BitVec.toInt_eq_toNat_cond]
  split <;> split <;> omega

/-- Bit 7 is the sign and the other seven bits are the magnitude (R87). -/
theorem disp_signMagnitude (r : Byte) :
    RelMode.signMagnitude.disp r = if r.toNat < 128 then (r.toNat : Int) else 128 - (r.toNat : Int) := by
  have hlow : (r &&& 0x7F#8).toNat = r.toNat % 128 := by
    rw [BitVec.toNat_and]
    exact Nat.and_two_pow_sub_one_eq_mod r.toNat 7
  have hr := r.isLt
  simp only [RelMode.disp, hlow, BitVec.msb_eq_decide, decide_eq_true_eq]
  split <;> split <;> omega

/-- `addr` of an integer is its remainder modulo the address space (R8). -/
theorem addrOfInt_toNat (bus : BusWidth) (v : Int) : ((bus.addrOfInt v).toNat : Int) = v % bus.size := by
  have hpos : (0 : Int) < bus.size := mod_cast bus.size_pos
  rw [BusWidth.addrOfInt, BusWidth.addr_toNat, Int.natCast_mod, Int.toNat_of_nonneg (Int.emod_nonneg _ hpos.ne'),
    Int.emod_emod]

/-- Settles O32: both readings of the byte, and a target that is the remainder of `PC_next` plus the displacement. -/
theorem branchDisplacementAndTarget : Obligations.BranchDisplacementAndTarget := by
  refine ⟨fun r => ⟨disp_twosComplement r, disp_signMagnitude r⟩, fun s r => ⟨?_, effectiveAddress_lt s _⟩⟩
  rw [effectiveAddress, addrOfInt_toNat, Int.emod_sub_emod, Int.sub_self, Int.zero_emod]

end Sys2Proof.Proofs
end

section
/-! SUPPORT. What a step is: the refusal of a halted engine, a decoded instruction's meaning, the diagnostic step of an
unrecognised byte; the statements of 40_step_dispatch.md. -/

namespace Sys2Proof.Proofs

open Sys2Proof.Machine Sys2Proof.Claims

/-! ## Halted engines and decoded instructions (R110, R112) -/

/-- A running engine is not refused: an instruction completes, and so does the step of an unrecognised byte. -/
theorem exists_next_of_running {s : State} (hr : s.running = true) : ∃ t, step s = .next t := by
  obtain ⟨i, -, -, hs⟩ | ⟨-, hs⟩ := step_running s hr
  · exact ⟨_, hs.trans (exec_eq i s)⟩
  · exact ⟨unrecognised s, hs⟩

/-- Settles O9: `step_halted`, and a running engine has a next state in place of the refusal. -/
theorem haltedEngineHasNoStep : Obligations.HaltedEngineHasNoStep := by
  refine fun s => ⟨fun href => Bool.eq_false_iff.2 fun hr => ?_, step_halted s⟩
  obtain ⟨t, hnext⟩ := exists_next_of_running hr
  cases href.symm.trans hnext

/-- Settles O6: `step_of_decode`. -/
theorem stepRunsTheDecodedInstruction : Obligations.StepRunsTheDecodedInstruction :=
  fun _ _ _ hr hd => step_of_decode hr hd

/-! ## The step of an unrecognised byte (R116) -/

/-- The bytes at PC are no instruction if the first of them is one of the 105. -/
theorem decode_fetchBytes_of_unrecognised {s : State} (hb : s.byteAt (s.addr s.pc.toNat) ∈ unrecognisedBytes) :
    decode s.cfg.bus (fetchBytes s) = .error (.unrecognised (s.byteAt (s.addr s.pc.toNat))) := by
  rw [fetchBytes_eq, memRead_eq]
  exact decode_of_no_row ((tableLookup_eq_none_iff _).2 hb) _ _

/-- Settles O8: the step and its event both read the one answer of `decode`, and `unrecognised` writes PC and the counter
by definition. -/
theorem unrecognisedOpcodeStep : Obligations.UnrecognisedOpcodeStep := by
  intro s hr hb
  have hd := decode_fetchBytes_of_unrecognised hb
  have hstep : step s = .next (unrecognised s) := by simp [step, hr, hd, decodeMiss]
  have hevent : stepEvent s = some (.unrecognised (s.byteAt (s.addr s.pc.toNat)) s.pc) := by simp [stepEvent, hr, hd]
  exact ⟨hstep, hevent⟩

end Sys2Proof.Proofs
end

section
/-! SUPPORT. What each addressing mode resolves to, and the pointers of page 0; the statements of
41_addressing_modes.md. -/

namespace Sys2Proof.Proofs

open Sys2Proof.Machine Sys2Proof.Claims

/-! ## Zero-page modes, and which instructions have the rarer modes (R134, R136 to R138) -/

/-- Page 0 lies in both address spaces, so an address in it is not reduced. -/
theorem addr_eq_ofNat_of_lt (bus : BusWidth) {v : Nat} (hv : v < 256) : bus.addr v = BitVec.ofNat 24 v := by
  have hsize : 256 ≤ bus.size := by cases bus <;> decide
  rw [BusWidth.addr, Nat.mod_eq_of_lt (hv.trans_le hsize)]

theorem mode_eq_accumulator_iff (i : Instr) :
    i.mode = .accumulator ↔ i ∈ [Instr.aslAcc, Instr.lsrAcc, Instr.rolAcc, Instr.rorAcc] := by
  cases i <;> simp [Instr.mode]

theorem exists_of_mode_tag_eq_zeroPageY {i : Instr} (h : i.mode.tag = .zeroPageY) :
    ∃ b, i = .ldxZpY b ∨ i = .stxZpY b := by
  cases i <;> simp_all [Instr.mode, AddressingMode.tag, MemMode.tag]

/-- Settles O30: the resolver's equations, the page-0 addresses by `addr_eq_ofNat_of_lt`, and the two classifications of
instructions by mode. -/
theorem immediateAndZeroPageModes : Obligations.ImmediateAndZeroPageModes := by
  refine ⟨fun _ => rfl, fun _ _ => rfl, fun s ea => memRead_eq s ea.toNat, fun _ => rfl, fun _ => rfl,
    mode_eq_accumulator_iff, fun _ _ => rfl, fun s b => ?_, fun s b => ?_, fun s b => ?_, fun i hi => ?_⟩
  · exact congrArg Operand.addr (addr_eq_ofNat_of_lt _ b.isLt)
  · exact congrArg Operand.addr (addr_eq_ofNat_of_lt _ (Nat.mod_lt _ (by decide)))
  · exact congrArg Operand.addr (addr_eq_ofNat_of_lt _ (Nat.mod_lt _ (by decide)))
  · obtain ⟨b, rfl | rfl⟩ := exists_of_mode_tag_eq_zeroPageY hi
    · exact .inl ⟨rfl, rfl⟩
    · exact .inr ⟨rfl, rfl⟩

/-! ## Pointers in page 0 (R59) -/

/-- `AB` bytes write a number of the bus, so the reduction of `ReadAddrZP` loses nothing. -/
theorem readAddrZP_toNat (z : Byte) (s : State) :
    (readAddrZP z s).toNat = leNat ((List.range s.cfg.bus.bytes).map fun k => memRead ((z.toNat + k) % 256) s) := by
  refine (BusWidth.addr_toNat _ _).trans (Nat.mod_eq_of_lt ?_)
  rw [BusWidth.size_eq]
  exact (leNat_lt _).trans_eq (by simp)

theorem readAddrZP_toNat_bits16 {s : State} (hbus : s.cfg.bus = .bits16) (z : Byte) :
    (readAddrZP z s).toNat = (memRead z.toNat s).toNat + 256 * (memRead ((z.toNat + 1) % 256) s).toNat := by
  rw [readAddrZP_toNat, hbus]
  simp [BusWidth.bytes, List.range_succ, leNat, Nat.mod_eq_of_lt z.isLt]

theorem readAddrZP_toNat_bits24 {s : State} (hbus : s.cfg.bus = .bits24) (z : Byte) :
    (readAddrZP z s).toNat = (memRead z.toNat s).toNat + 256 * (memRead ((z.toNat + 1) % 256) s).toNat +
      65536 * (memRead ((z.toNat + 2) % 256) s).toNat := by
  rw [readAddrZP_toNat, hbus]
  simp [BusWidth.bytes, List.range_succ, leNat, Nat.mod_eq_of_lt z.isLt, Nat.mul_add, ← Nat.mul_assoc, Nat.add_assoc]

/-! ## Absolute and indirect modes (R139 to R144) -/

/-- Settles O31: the sum of an indexed mode is reduced once by `addr`; an indirect mode through page 0 is the pointer
read there, whose own byte addresses wrap at 256. -/
theorem absoluteAndIndirectModes : Obligations.AbsoluteAndIndirectModes := by
  intro s a b
  refine ⟨BusWidth.addr_toNat _ _, BusWidth.addr_toNat _ _, BusWidth.addr_toNat _ _, rfl,
    fun hbus => ⟨?_, ?_⟩, fun hbus => ⟨?_, ?_⟩⟩
  · simp [effectiveAddress, readAddrZP_toNat_bits16 hbus]
  · simp [effectiveAddress, readAddrZP_toNat_bits16 hbus, hbus, BusWidth.size, BusWidth.bits]
  · simp [effectiveAddress, readAddrZP_toNat_bits24 hbus]
  · simp [effectiveAddress, readAddrZP_toNat_bits24 hbus, hbus, BusWidth.size, BusWidth.bits]

end Sys2Proof.Proofs
end

section
/-! SUPPORT. The forms of a mnemonic read off the opcode table, how an instruction that takes no branch ends, and the loads
and stores; the statements of 42_load_store.md. -/

namespace Sys2Proof.Proofs

open Sys2Proof.Machine Sys2Proof.Claims

/-! ## The forms of a mnemonic (R95) -/

/-- The opcode, mode and base cycles of every row of a mnemonic in the opcode table. -/
def tableForms (m : Mnemonic) : List (Byte × ModeTag × Nat) :=
  (opcodeTable.filter fun r => r.mnemonic = m).map fun r => (r.opcode, r.mode, r.cycles)

theorem mem_tableForms_iff {m : Mnemonic} {f : Byte × ModeTag × Nat} :
    f ∈ tableForms m ↔ ∃ r ∈ opcodeTable, r.mnemonic = m ∧ (r.opcode, r.mode, r.cycles) = f := by
  simp [tableForms, and_assoc]

/-- The table lists the form of every instruction under its mnemonic. -/
theorem form_mem_tableForms (i : Instr) : (i.opcode, i.mode.tag, i.baseCycles) ∈ tableForms i.mnemonic := by
  obtain ⟨⟨f, hrow, -⟩, hcost⟩ := Laws.TableRow.all i
  exact mem_tableForms_iff.2 ⟨_, List.mem_of_find?_eq_some hrow, rfl, by rw [hcost]⟩

/-- The forms of a mnemonic are those its rows list, in whatever order. -/
theorem formsAre_of_perm {m : Mnemonic} {forms : List (Byte × ModeTag × Nat)} (h : (tableForms m).Perm forms) :
    FormsAre m forms := by
  refine ⟨fun i hi => h.subset (hi ▸ form_mem_tableForms i), fun f hf => ?_⟩
  obtain ⟨r, hr, rfl, rfl⟩ := mem_tableForms_iff.1 (h.mem_iff.2 hf)
  obtain ⟨i, hop, hm, hmode, hcost⟩ := opcodeTable_inhabited hr
  exact ⟨i, hm, by rw [hop, hmode, hcost]⟩

/-! ## The end of an instruction that takes no branch (R112, R117, R118) -/

/-- The execute phase of an instruction is its mnemonic's effect on its operand, in the state it sees. -/
theorem executed_eq {i : Instr} {m : Mnemonic} (hm : i.mnemonic = m) (s : State) :
    executed i s = effect m (resolve i.mode (atExecute i s)) s.pc (atExecute i s) := by
  subst hm; rfl

/-- Without a fault only the base cost is added to what the execute phase leaves. -/
theorem exec_of_not_taken {i : Instr} {s u : State} (ht : taken i.mnemonic s = false) (he : executed i s = u)
    (hu : u.fault = .none) :
    exec i s = .next { u with cycleCount := s.cfg.wrapCycles (s.cycleCount + i.baseCycles) } := by
  have hc : u.cfg = s.cfg := by simp [← he, executed]
  have hn : u.cycleCount = s.cycleCount := by simp [← he, executed]
  rw [exec_of_no_fault he hu, ht, hc, hn]
  rfl

/-- With a fault the engine is halted as well. -/
theorem exec_of_not_taken_of_fault {i : Instr} {s u : State} (ht : taken i.mnemonic s = false) (he : executed i s = u)
    (hu : u.fault = .outOfBoundsWrite) :
    exec i s = .next { u with
      cycleCount := s.cfg.wrapCycles (s.cycleCount + i.baseCycles), running := false } := by
  have hc : u.cfg = s.cfg := by simp [← he, executed]
  have hn : u.cycleCount = s.cycleCount := by simp [← he, executed]
  rw [exec_of_fault he hu, ht, hc, hn]
  rfl

/-! ## Loads (R150 to R153) -/

/-- `setZN` tests for zero and reads bit 7 (R150). -/
theorem setZN_eq_znOf (v : Byte) (f : Flags) : Flags.setZN v f = znOf v f := by
  simp [Flags.setZN, znOf, BitVec.msb_eq_decide, beq_eq_decide]

/-- Settles O35: the forms are the table's, and each execute phase is its register and `setZN` of the operand. -/
theorem loadsWriteRegisterAndZN : Obligations.LoadsWriteRegisterAndZN := by
  refine ⟨formsAre_of_perm (by decide), formsAre_of_perm (by decide), formsAre_of_perm (by decide), fun i s hf => ?_⟩
  refine ⟨fun hm => ?_, fun hm => ?_, fun hm => ?_⟩
  all_goals
    rw [← setZN_eq_znOf]
    exact exec_of_not_taken (by rw [hm]; rfl) (executed_eq hm s) hf

/-! ## Stores (R154 to R156) -/

theorem memWrite_setFlags_self (a : Nat) (v : Byte) (s : State) : (memWrite a v s).setFlags s.flags = memWrite a v s := by
  rw [← memWrite_flags s a v]
  rfl

/-- An instruction whose execute phase is one write at its effective address, and the flags, stores that byte (R56). -/
theorem storesByte_of_executed {i : Instr} {s : State} {v : Byte} {f : Flags} (hf : s.fault = .none)
    (hw : Memory.wf s.mem) (ht : taken i.mnemonic s = false)
    (he : ∀ m, i.mode = .memory m →
      executed i s = (memWrite (effectiveAddress m (atExecute i s)).toNat v (atExecute i s)).setFlags f) :
    StoresByte i s v f := by
  intro m hm ea
  have hea : s.cfg.bus.addr ea.toNat = ea := addr_effectiveAddress (atExecute i s) m
  have hu := he m hm
  refine ⟨fun hwritable => ?_, fun hprotected => ?_⟩
  · have hbyte := fun b => memWrite_byteAt (atExecute i s) ea.toNat v b hw
    have hwrite := memWrite_writable (atExecute i s) ea.toNat v (hea.symm ▸ hwritable)
    rw [hwrite] at hu hbyte
    refine ⟨_, exec_of_not_taken ht hu hf, rfl, fun b => (hbyte b).trans ?_⟩
    simp [atExecute, State.byteAt, hea, hwritable]
  · rw [memWrite_protected (atExecute i s) ea.toNat v (hea.symm ▸ hprotected)] at hu
    exact exec_of_not_taken_of_fault ht hu rfl

/-- Settles O36: the forms are the table's, and each execute phase is one write of its register. -/
theorem storesWriteOneByte : Obligations.StoresWriteOneByte := by
  refine ⟨formsAre_of_perm (by decide), formsAre_of_perm (by decide), formsAre_of_perm (by decide), fun i s hf hw => ?_⟩
  refine ⟨fun hm => ?_, fun hm => ?_, fun hm => ?_⟩
  all_goals
    refine storesByte_of_executed hf hw (by rw [hm]; rfl) fun m hmode => ?_
    rw [executed_eq hm, hmode]
    exact (memWrite_setFlags_self _ _ _).symm

end Sys2Proof.Proofs
end

section
/-! SUPPORT. Overflow as the signed range, and what addition, comparison and bit test write; the statements of
43_alu.md. -/

namespace Sys2Proof.Proofs

open Sys2Proof.Machine Sys2Proof.Claims

/-! ## Signed overflow (R160) -/

/-- The bitwise formula asks whether the result's sign differs from both operands' signs. -/
theorem signedOverflow_eq_msb (a b r : Byte) : signedOverflow a b r = ((a.msb != r.msb) && (b.msb != r.msb)) := by
  have hmask : ∀ x : Byte, (x &&& 0x80#8 != 0#8) = x.msb := by decide
  rw [signedOverflow, hmask, BitVec.msb_and, BitVec.msb_xor, BitVec.msb_xor]

/-- Settles O39: each sign bit says on which side of 128 its byte lies, and the rest is linear arithmetic. -/
theorem signedOverflowIsTheSignedRange : Obligations.SignedOverflowIsTheSignedRange := by
  intro a b c
  have hc := bitNat_le c
  have ha := a.isLt
  have hb := b.isLt
  rw [signedOverflow_eq_msb]
  simp only [BitVec.msb_eq_decide, BitVec.toInt_eq_toNat_cond, BitVec.toNat_ofNat, bne_iff_ne, ne_eq, Bool.and_eq_true,
    decide_eq_decide]
  omega

/-! ## Addition and subtraction (R161, R162) -/

/-- The flags after an addition, with V as the signed range. -/
theorem afterAdd_eq_znOf (a v : Byte) (f : Flags) :
    Flags.afterAdd a v f = znOf (addResult a v f.c) { f with
      c := decide (255 < carrySum a v f.c)
      v := decide (a.toInt + v.toInt + bitNat f.c < -128 ∨ 127 < a.toInt + v.toInt + bitNat f.c) } := by
  have hv := Bool.eq_iff_iff.2 ((signedOverflowIsTheSignedRange a v f.c).trans decide_eq_true_iff.symm)
  rw [← setZN_eq_znOf, ← hv]
  rfl

/-- An instruction whose execute phase adds `v` and C to A writes A and the flags, and changes nothing else (R161). -/
theorem exec_of_addToA {i : Instr} {s : State} {v : Byte} (hf : s.fault = .none) (ht : taken i.mnemonic s = false)
    (he : executed i s = addToA v (atExecute i s)) :
    exec i s = .next { retired i s with a := addResult s.a v s.flags.c, flags := Flags.afterAdd s.a v s.flags } :=
  exec_of_not_taken ht he hf

/-- Settles O37: the forms are the table's, and the execute phase adds the operand. -/
theorem adcAddsWithCarry : Obligations.AdcAddsWithCarry := by
  refine ⟨formsAre_of_perm (by decide), fun i s hf hm => ?_⟩
  rw [exec_of_addToA hf (by rw [hm]; rfl) (executed_eq hm s), afterAdd_eq_znOf]
  rfl

/-- The sum with the one's complement is 256 more than the difference less the borrow (R162). -/
theorem carrySum_not (a v : Byte) (c : Bool) :
    (carrySum a (~~~v) c : Int) = (a.toNat : Int) - v.toNat - (1 - bitNat c) + 256 := by
  have hv := v.isLt
  rw [carrySum, BitVec.toNat_not]
  omega

theorem addResult_not (a v : Byte) (c : Bool) :
    addResult a (~~~v) c = BitVec.ofInt 8 ((a.toNat : Int) - v.toNat - (1 - bitNat c)) := by
  rw [addResult, ← BitVec.ofInt_natCast, carrySum_not, BitVec.ofInt_add]
  exact BitVec.add_zero _

theorem toInt_not_byte (v : Byte) : (~~~v).toInt = -v.toInt - 1 := by
  have hv := v.isLt
  simp only [BitVec.toInt_eq_toNat_cond, BitVec.toNat_not]
  omega

/-- The flags after an addition of the one's complement: C is not-borrow, V is the range of the signed difference. -/
theorem afterAdd_not_eq_znOf (a v : Byte) (f : Flags) :
    Flags.afterAdd a (~~~v) f = znOf (addResult a (~~~v) f.c) { f with
      c := decide (0 ≤ (a.toNat : Int) - v.toNat - (1 - bitNat f.c))
      v := decide (a.toInt - v.toInt - (1 - bitNat f.c) < -128 ∨ 127 < a.toInt - v.toInt - (1 - bitNat f.c)) } := by
  have hsum := carrySum_not a v f.c
  have hcarry : 255 < carrySum a (~~~v) f.c ↔ 0 ≤ (a.toNat : Int) - v.toNat - (1 - bitNat f.c) := by omega
  have hsigned : a.toInt + (~~~v).toInt + bitNat f.c = a.toInt - v.toInt - (1 - bitNat f.c) := by
    rw [toInt_not_byte]
    omega
  simp only [afterAdd_eq_znOf, hcarry, hsigned]

/-- Settles O38: the forms are the table's, and the execute phase adds the operand's one's complement. -/
theorem sbcSubtractsWithBorrow : Obligations.SbcSubtractsWithBorrow := by
  refine ⟨formsAre_of_perm (by decide), fun i s hf hm => ?_⟩
  rw [exec_of_addToA hf (by rw [hm]; rfl) (executed_eq hm s), afterAdd_not_eq_znOf, addResult_not]
  rfl

/-! ## Logic (R165 to R167) -/

/-- Settles O40: the forms are the table's, and each execute phase is A and `setZN` of its bitwise result. -/
theorem logicWritesAAndZN : Obligations.LogicWritesAAndZN := by
  refine ⟨formsAre_of_perm (by decide), formsAre_of_perm (by decide), formsAre_of_perm (by decide), fun i s hf => ?_⟩
  refine ⟨fun hm => ?_, fun hm => ?_, fun hm => ?_⟩
  all_goals
    rw [← setZN_eq_znOf]
    exact exec_of_not_taken (by rw [hm]; rfl) (executed_eq hm s) hf

/-! ## Compare and bit test (R168 to R172) -/

/-- `compare` sets N to bit 7 of the difference modulo 256 (R168). -/
theorem afterCompare_eq (reg v : Byte) (f : Flags) :
    Flags.afterCompare reg v f = { f with
      c := decide (v.toNat ≤ reg.toNat)
      z := decide (reg = v)
      n := decide (128 ≤ (reg.toNat + 256 - v.toNat) % 256) } := by
  have hdiff : (reg - v).toNat = (reg.toNat + 256 - v.toNat) % 256 := by
    have hv := v.isLt
    rw [BitVec.toNat_sub]
    omega
  rw [Flags.afterCompare, BitVec.msb_eq_decide, hdiff, beq_eq_decide]

/-- Settles O41: the forms are the table's, and each execute phase is `compare` of its register. -/
theorem comparesWriteCZN : Obligations.ComparesWriteCZN := by
  refine ⟨formsAre_of_perm (by decide), formsAre_of_perm (by decide), formsAre_of_perm (by decide), fun i s hf => ?_⟩
  simp only [← afterCompare_eq]
  refine ⟨fun hm => ?_, fun hm => ?_, fun hm => ?_⟩
  all_goals exact exec_of_not_taken (by rw [hm]; rfl) (executed_eq hm s) hf

theorem afterBit_eq (a v : Byte) (f : Flags) :
    Flags.afterBit a v f = { f with
      z := decide (a &&& v = 0)
      n := decide (v.toNat / 128 % 2 = 1)
      v := decide (v.toNat / 64 % 2 = 1) } := by
  rw [Flags.afterBit, getLsbD_eq_decide, getLsbD_eq_decide, beq_eq_decide]
  rfl

/-- Settles O42: the forms are the table's, and the execute phase writes the flags alone. -/
theorem bitTestsTheOperand : Obligations.BitTestsTheOperand := by
  refine ⟨formsAre_of_perm (by decide), fun i s hf hm => ?_⟩
  simp only [← afterBit_eq]
  exact exec_of_not_taken (by rw [hm]; rfl) (executed_eq hm s) hf

end Sys2Proof.Proofs
end

section
/-! SUPPORT. Shifted and incremented bytes as numbers, and the read-modify-write pattern; the statements of
44_shift_incdec.md. -/

namespace Sys2Proof.Proofs

open Sys2Proof.Machine Sys2Proof.Claims

/-! ## Shifted and incremented bytes -/

theorem shiftLeft_one_eq_ofNat (v : Byte) : v <<< 1 = BitVec.ofNat 8 (2 * v.toNat) := by
  apply BitVec.eq_of_toNat_eq
  rw [BitVec.toNat_shiftLeft, BitVec.toNat_ofNat, Nat.shiftLeft_eq, Nat.mul_comm]

theorem ushiftRight_one_eq_ofNat (v : Byte) : v >>> 1 = BitVec.ofNat 8 (v.toNat / 2) := by
  have hv := v.isLt
  apply BitVec.eq_of_toNat_eq
  rw [BitVec.toNat_ushiftRight, BitVec.toNat_ofNat, Nat.shiftRight_eq_div_pow]
  omega

theorem flagBit_eq_ofNat (b : Bool) (k : Nat) : flagBit b k = BitVec.ofNat 8 (2 ^ k * bitNat b) := by
  apply BitVec.eq_of_toNat_eq
  rw [flagBit, BitVec.toNat_shiftLeft, BitVec.toNat_ofNat, BitVec.toNat_ofNat, Nat.shiftLeft_eq, Nat.mod_mul_mod,
    Nat.mul_comm]

/-- Inserting a flag at a clear bit adds that bit's weight. -/
theorem or_flagBit_eq_add {x : Byte} {k : Nat} (hx : x.getLsbD k = false) (b : Bool) :
    x ||| flagBit b k = x + BitVec.ofNat 8 (2 ^ k * bitNat b) := by
  have hdisjoint : x &&& flagBit b k = 0#8 := by
    ext j hj
    rw [BitVec.getElem_and, getElem_flagBit b k j hj, ← BitVec.getLsbD_eq_getElem]
    by_cases hjk : j = k
    · simp [hjk, hx]
    · simp [hjk]
  rw [← BitVec.add_eq_or_of_and_eq_zero _ _ hdisjoint, flagBit_eq_ofNat]

/-- A left shift clears bit 0, where the carry goes (R183). -/
theorem rotateLeft_eq_ofNat (v : Byte) (c : Bool) :
    v <<< 1 ||| flagBit c 0 = BitVec.ofNat 8 (2 * v.toNat + bitNat c) := by
  rw [or_flagBit_eq_add (by simp), shiftLeft_one_eq_ofNat, ← BitVec.ofNat_add, pow_zero, one_mul]

/-- A right shift clears bit 7, where the carry goes (R184). -/
theorem rotateRight_eq_ofNat (v : Byte) (c : Bool) :
    v >>> 1 ||| flagBit c 7 = BitVec.ofNat 8 (v.toNat / 2 + 128 * bitNat c) := by
  rw [or_flagBit_eq_add (by simp), ushiftRight_one_eq_ofNat, ← BitVec.ofNat_add]
  rfl

theorem getLsbD_seven_eq_decide (v : Byte) : v.getLsbD 7 = decide (128 ≤ v.toNat) := BitVec.msb_eq_decide v

theorem getLsbD_zero_eq_decide (v : Byte) : v.getLsbD 0 = decide (v.toNat % 2 = 1) := by
  rw [getLsbD_eq_decide, pow_zero, Nat.div_one]

theorem ofNat_toNat_add_one (v : Byte) : BitVec.ofNat 8 (v.toNat + 1) = v + 1#8 := by
  rw [BitVec.ofNat_add, BitVec.ofNat_toNat, BitVec.setWidth_eq]

/-- Adding 255 subtracts 1 modulo 256. -/
theorem ofNat_toNat_add_255 (v : Byte) : BitVec.ofNat 8 (v.toNat + 255) = v - 1#8 := by
  rw [BitVec.ofNat_add, BitVec.ofNat_toNat, BitVec.setWidth_eq, BitVec.sub_eq_add_neg]
  rfl

/-! ## The read-modify-write pattern (R180) -/

/-- An instruction whose execute phase is one write-back to its operand, and the flags, writes back that result. -/
theorem writesBack_of_executed {i : Instr} {s : State} {r : Byte} {f : Flags} (hf : s.fault = .none)
    (hw : Memory.wf s.mem) (ht : taken i.mnemonic s = false)
    (he : executed i s = (writeBack (resolve i.mode (atExecute i s)) r (atExecute i s)).setFlags f) :
    WritesBack i s r f := by
  refine ⟨fun hacc => ?_, storesByte_of_executed hf hw ht fun m hm => ?_⟩
  · have hacc' : resolve i.mode (atExecute i s) = .acc := (resolve_eq_acc_iff _ _).2 hacc
    rw [hacc', writeBack_acc] at he
    exact exec_of_not_taken ht he hf
  · rw [he, hm, resolve, writeBack_addr]

theorem shiftInto_eq (o : Operand) (out : Bool) (r : Byte) (s : State) :
    shiftInto o out r s = (writeBack o r s).setFlags (znOf r { s.flags with c := out }) := by
  rw [shiftInto, writeBack_flags, Flags.afterShift, setZN_eq_znOf]

theorem setZN_writeBack_eq (o : Operand) (r : Byte) (s : State) :
    setZN r (writeBack o r s) = (writeBack o r s).setFlags (znOf r s.flags) := by
  rw [setZN, writeBack_flags, setZN_eq_znOf]

/-! ## Shifts and rotates (R181 to R184) -/

theorem writesBack_of_shiftInto {i : Instr} {s : State} {out : Bool} {r : Byte} (hf : s.fault = .none)
    (hw : Memory.wf s.mem) (ht : taken i.mnemonic s = false)
    (he : executed i s = shiftInto (resolve i.mode (atExecute i s)) out r (atExecute i s)) :
    WritesBack i s r (znOf r { s.flags with c := out }) :=
  writesBack_of_executed hf hw ht (he.trans (shiftInto_eq _ _ _ _))

/-- Settles O43: the forms are the table's, and each execute phase writes its operand back shifted, with the bit shifted
out. -/
theorem shiftsWriteBack : Obligations.ShiftsWriteBack := by
  refine ⟨formsAre_of_perm (by decide), formsAre_of_perm (by decide), formsAre_of_perm (by decide),
    formsAre_of_perm (by decide), fun i s hf hw => ?_⟩
  simp only [← shiftLeft_one_eq_ofNat, ← ushiftRight_one_eq_ofNat, ← rotateLeft_eq_ofNat, ← rotateRight_eq_ofNat,
    ← getLsbD_seven_eq_decide, ← getLsbD_zero_eq_decide]
  refine ⟨fun hm => ?_, fun hm => ?_, fun hm => ?_, fun hm => ?_⟩
  all_goals exact writesBack_of_shiftInto hf hw (by rw [hm]; rfl) (executed_eq hm s)

/-! ## Increments and decrements (R185 to R190) -/

/-- Settles O44: the forms are the table's, and each execute phase writes its operand back, then `setZN`. -/
theorem memoryIncrementsWriteBack : Obligations.MemoryIncrementsWriteBack := by
  refine ⟨formsAre_of_perm (by decide), formsAre_of_perm (by decide), fun i s hf hw => ?_⟩
  simp only [ofNat_toNat_add_one, ofNat_toNat_add_255]
  refine ⟨fun hm => ?_, fun hm => ?_⟩
  all_goals
    refine (writesBack_of_executed hf hw (by rw [hm]; rfl) ?_).2
    exact (executed_eq hm s).trans (setZN_writeBack_eq _ _ _)

/-- Settles O45: the forms are the table's, and each execute phase is its register and `setZN` of the result. -/
theorem indexIncrements : Obligations.IndexIncrements := by
  refine ⟨formsAre_of_perm (by decide), formsAre_of_perm (by decide), formsAre_of_perm (by decide),
    formsAre_of_perm (by decide), fun s hf => ?_⟩
  simp only [← setZN_eq_znOf, ofNat_toNat_add_one, ofNat_toNat_add_255]
  refine ⟨?_, ?_, ?_, ?_⟩
  all_goals exact exec_of_not_taken rfl rfl hf

end Sys2Proof.Proofs
end

section
/-! SUPPORT. What a pushing instruction leaves, and the transfers, flag instructions and stack instructions; the statements
of 45_transfer_flag_stack.md. -/

namespace Sys2Proof.Proofs

open Sys2Proof.Machine Sys2Proof.Claims

/-! ## Pushing (R61, R118) -/

/-- Pushing writes SP, memory and the fault alone (R61). -/
theorem pushAll_frame (vs : List Byte) (s : State) :
    pushAll vs s =
      { s with sp := (pushAll vs s).sp, mem := (pushAll vs s).mem, fault := (pushAll vs s).fault } := by
  induction vs generalizing s with
  | nil => rfl
  | cons v vs ih =>
    refine (ih (push v s)).trans ?_
    simp [pushAll]

/-- The end of a step counts cycles and may halt the engine, and changes nothing else (R117, R118). -/
theorem retire_frame (cost : Nat) (b : Bool) (s : State) :
    retire cost b s = { s with
      cycleCount := s.cfg.wrapCycles (s.cycleCount + (cost + bitNat b)), running := (retire cost b s).running } := by
  rw [retire, haltOnFault]
  split <;> rfl

/-- A step that ends in a state with SP, memory and fault of a push of `vs` pushed those bytes; they are at most 256, so
that no slot is written twice. -/
theorem pushesBytes_retire {s u : State} {vs : List Byte} (hf : s.fault = .none) (hw : Memory.wf s.mem)
    (hl : vs.length ≤ 256) (hsp : u.sp = (pushAll vs s).sp) (hmem : u.mem = (pushAll vs s).mem)
    (hfault : u.fault = (pushAll vs s).fault) (cost : Nat) (b : Bool) :
    PushesBytes s (retire cost b u) vs u.running := by
  have hbyte (a : Addr) : (retire cost b u).byteAt a = (pushAll vs s).byteAt a := by
    simp only [State.byteAt, retire_mem, hmem]
  have hslots : u.fault =
      if ∃ k < vs.length, s.cfg.isWritable (stackSlot s k) = false then .outOfBoundsWrite else .none := by
    rw [hfault, pushAll_fault, hf]
    rfl
  refine ⟨?_, fun k hk hwr => ?_, fun a ha => ?_, fun hall => ?_, fun hex => ?_⟩
  · rw [retire_sp, hsp, pushAll_sp]
  · rw [hbyte]
    exact pushAll_byteAt s vs k hk hl hw hwr
  · rw [hbyte]
    exact pushAll_byteAt_of_not s vs a hw ha
  · have hnone : u.fault = .none := by
      rw [hslots, if_neg]
      rintro ⟨k, hk, hp⟩
      exact Bool.false_ne_true (hp.symm.trans (hall k hk))
    simp [hnone]
  · rw [if_pos hex] at hslots
    simp [hslots]

/-- An instruction whose execute phase pushes `vs` and goes to `p` pushes those bytes and changes nothing else. -/
theorem exec_of_pushAll {i : Instr} {s : State} {vs : List Byte} {p : Addr} (hf : s.fault = .none)
    (hw : Memory.wf s.mem) (hl : vs.length ≤ 256) (ht : taken i.mnemonic s = false)
    (he : executed i s = (pushAll vs s).setPc p) :
    ∃ t, exec i s = .next t ∧
      t = { retired i s with pc := p, sp := t.sp, mem := t.mem, fault := t.fault, running := t.running } ∧
      PushesBytes s t vs s.running := by
  refine ⟨retire i.baseCycles false ((pushAll vs s).setPc p), by rw [exec_eq, ht, he], ?_, ?_⟩
  · rw [retire_frame, pushAll_frame]
    rfl
  · rw [← pushAll_running s vs]
    exact pushesBytes_retire (u := (pushAll vs s).setPc p) hf hw hl rfl rfl rfl _ _

/-- The status byte is the sum of its bits (R33). -/
theorem getPS_eq_statusByte (s : State) : getPS s = statusByte s.flags s.running := flagBits_eq_statusByte ..

/-- Settles O50: the forms are the table's, and each execute phase is one push past the opcode byte. -/
theorem pushInstructions : Obligations.PushInstructions := by
  refine ⟨formsAre_of_perm (by decide), formsAre_of_perm (by decide), fun s hf hw => ⟨?_, ?_⟩⟩
  · exact exec_of_pushAll hf hw (by simp) rfl (push_setPc s _ _)
  · rw [← getPS_eq_statusByte]
    exact exec_of_pushAll hf hw (by simp) rfl (push_setPc s _ _)

/-! ## Pulling (R62) -/

/-- Settles O51: the forms are the table's, and each execute phase pops one byte, for A and `setZN` or for the flags. -/
theorem pullInstructions : Obligations.PullInstructions := by
  refine ⟨formsAre_of_perm (by decide), formsAre_of_perm (by decide), fun s hf => ?_⟩
  rw [← setZN_eq_znOf, ← ofByte_eq_statusFlags]
  exact ⟨exec_of_not_taken rfl rfl hf, exec_of_not_taken rfl rfl hf⟩

/-! ## Transfers (R200 to R205) -/

/-- Settles O46: the forms are the table's; TSX is X and `setZN`, TXS is SP alone. -/
theorem stackPointerTransfers : Obligations.StackPointerTransfers := by
  refine ⟨formsAre_of_perm (by decide), formsAre_of_perm (by decide), fun s hf => ?_⟩
  rw [← setZN_eq_znOf]
  exact ⟨exec_of_not_taken rfl rfl hf, exec_of_not_taken rfl rfl hf⟩

/-- Settles O47: the forms are the table's, and each execute phase is its register and `setZN` of the copy. -/
theorem registerTransfers : Obligations.RegisterTransfers := by
  refine ⟨formsAre_of_perm (by decide), formsAre_of_perm (by decide), formsAre_of_perm (by decide),
    formsAre_of_perm (by decide), fun s hf => ?_⟩
  simp only [← setZN_eq_znOf]
  refine ⟨?_, ?_, ?_, ?_⟩
  all_goals exact exec_of_not_taken rfl rfl hf

/-! ## Flag instructions and NOP (R206 to R212, R217) -/

/-- Settles O48: the forms are the table's, and each execute phase writes its flag. -/
theorem flagInstructions : Obligations.FlagInstructions := by
  refine ⟨formsAre_of_perm (by decide), formsAre_of_perm (by decide), formsAre_of_perm (by decide),
    formsAre_of_perm (by decide), formsAre_of_perm (by decide), fun s hf => ⟨?_, ?_, ?_, ?_, ?_⟩⟩
  all_goals exact exec_of_not_taken rfl rfl hf

/-- Settles O49: the forms are the table's, and each execute phase writes I. -/
theorem interruptFlagInstructions : Obligations.InterruptFlagInstructions :=
  ⟨formsAre_of_perm (by decide), formsAre_of_perm (by decide),
    fun _ hf => ⟨exec_of_not_taken rfl rfl hf, exec_of_not_taken rfl rfl hf⟩⟩

/-- Settles O52: the form is the table's, and the execute phase changes nothing. -/
theorem nopOnlyPasses : Obligations.NopOnlyPasses :=
  ⟨formsAre_of_perm (by decide), fun _ hf => exec_of_not_taken rfl rfl hf⟩

end Sys2Proof.Proofs
end

section
/-! SUPPORT. The end of a branch, addresses on the stack, and the frame of a break; the statements of
46_control_flow.md. -/

namespace Sys2Proof.Proofs

open Sys2Proof.Machine Sys2Proof.Claims

/-! ## Branches and jumps (R230 to R240) -/

/-- A branch whose condition `p` decides goes to its target with one more cycle, or else just past itself (R230). -/
theorem exec_branch {i : Instr} {r : Byte} {s : State} {p : Prop} [Decidable p] (hf : s.fault = .none)
    (hp : taken i.mnemonic s = true ↔ p)
    (he : executed i s = if taken i.mnemonic s = true then
      (atExecute i s).setPc (effectiveAddress (.relative r) (atExecute i s)) else atExecute i s) :
    exec i s = .next (if p then branched i r s else retired i s) := by
  rw [← if_congr hp rfl rfl]
  cases ht : taken i.mnemonic s with
  | false =>
    rw [ht] at he
    exact exec_of_not_taken ht he hf
  | true =>
    rw [ht] at he
    rw [exec_of_no_fault he hf, ht]
    rfl

/-- Settles O53: the forms are the table's, and each execute phase is the shared branch rule with its own flag test. -/
theorem branchesTestOneFlag : Obligations.BranchesTestOneFlag := by
  refine ⟨formsAre_of_perm (by decide), formsAre_of_perm (by decide), formsAre_of_perm (by decide),
    formsAre_of_perm (by decide), formsAre_of_perm (by decide), formsAre_of_perm (by decide),
    formsAre_of_perm (by decide), formsAre_of_perm (by decide), fun s r hf => ?_⟩
  have hclear (b : Bool) : (!b) = true ↔ b = false := by simp
  exact ⟨exec_branch hf (hclear _) rfl, exec_branch hf Iff.rfl rfl, exec_branch hf Iff.rfl rfl,
    exec_branch hf (hclear _) rfl, exec_branch hf Iff.rfl rfl, exec_branch hf (hclear _) rfl,
    exec_branch hf (hclear _) rfl, exec_branch hf Iff.rfl rfl⟩

/-- Settles O54: the forms are the table's, and each execute phase sets PC to its effective address. -/
theorem jmpSetsPc : Obligations.JmpSetsPc :=
  ⟨formsAre_of_perm (by decide), fun _ _ hf => ⟨exec_of_not_taken rfl rfl hf, exec_of_not_taken rfl rfl hf⟩⟩

/-! ## Popping an address (R62 to R64) -/

/-- The popped address is the number its `AB` bytes write, low byte first. -/
theorem poppedAddress_eq_leNat (s : State) (k : Nat) :
    poppedAddress s k = leNat ((List.range s.cfg.bus.bytes).map fun j => poppedByte s (k + j)) := by
  unfold poppedAddress
  cases s.cfg.bus with
  | bits16 => simp [BusWidth.bytes, List.range_succ, leNat]
  | bits24 => simp [BusWidth.bytes, List.range_succ, leNat]; omega

theorem popAddr_eq_poppedAddress (s : State) :
    popAddr s = (poppedAddress s 1, s.setSp (s.sp + BitVec.ofNat 8 s.cfg.bus.bytes)) := by
  simp only [popAddr_eq, poppedAddress_eq_leNat, Nat.add_comm 1]
  rfl

/-- After one byte is popped, the next one up is the following byte of the stack. -/
theorem poppedByte_of_sp_succ {s u : State} (hc : u.cfg = s.cfg) (hm : u.mem = s.mem) (hsp : u.sp = s.sp + 1#8)
    (k : Nat) : poppedByte u k = poppedByte s (k + 1) := by
  have hslot : s.sp + 1#8 + BitVec.ofNat 8 k = s.sp + BitVec.ofNat 8 (k + 1) := by bv_omega
  simp only [poppedByte, State.byteAt, State.addr, hc, hm, hsp, hslot]

theorem poppedAddress_of_sp_succ {s u : State} (hc : u.cfg = s.cfg) (hm : u.mem = s.mem) (hsp : u.sp = s.sp + 1#8)
    (k : Nat) : poppedAddress u k = poppedAddress s (k + 1) := by
  simp only [poppedAddress_eq_leNat, hc, poppedByte_of_sp_succ hc hm hsp, Nat.add_right_comm]

/-- Settles O56: the form is the table's, and the execute phase pops an address and goes one past it. -/
theorem rtsReturns : Obligations.RtsReturns := by
  refine ⟨formsAre_of_perm (by decide), fun s hf => ?_⟩
  have he : executed .rts s = rts (atExecute .rts s) := rfl
  rw [rts, popAddr_eq_poppedAddress] at he
  exact exec_of_not_taken rfl he hf

/-- A return from a break is the flags of the first popped byte, then PC the address above it (R266). -/
theorem returnFromBreak_eq (s : State) :
    returnFromBreak s = ((s.setFlags (statusFlags (poppedByte s 1))).setSp
      (s.sp + BitVec.ofNat 8 (s.cfg.bus.bytes + 1))).setPc (s.addr (poppedAddress s 2)) := by
  have hsp : s.sp + 1#8 + BitVec.ofNat 8 s.cfg.bus.bytes = s.sp + BitVec.ofNat 8 (s.cfg.bus.bytes + 1) := by bv_omega
  have hpc := poppedAddress_of_sp_succ (s := s) (u := setPS (poppedByte s 1) (pop s).2) rfl rfl rfl 1
  rw [← ofByte_eq_statusFlags, ← hsp, ← hpc, returnFromBreak]
  exact congrArg (fun r => r.2.setPc (r.2.addr r.1)) (popAddr_eq_poppedAddress (setPS (poppedByte s 1) (pop s).2))

/-- Settles O58: the form is the table's, and the execute phase is the return from a break. -/
theorem rtiReturns : Obligations.RtiReturns := by
  refine ⟨formsAre_of_perm (by decide), fun s hf => ?_⟩
  have he : executed .rti s = returnFromBreak (atExecute .rti s) := rfl
  rw [returnFromBreak_eq] at he
  exact exec_of_not_taken rfl he hf

/-! ## Pushing an address (R64) -/

theorem reverse_leBytes_eq_addressBytes (bus : BusWidth) (v : Nat) :
    (leBytes bus.bytes v).reverse = addressBytes bus v := by
  cases bus <;> simp [BusWidth.bytes, leBytes, addressBytes, Nat.div_div_eq_div_mul]

@[simp] theorem addressBytes_length (bus : BusWidth) (v : Nat) : (addressBytes bus v).length = bus.bytes := by
  cases bus <;> rfl

/-- The address one below `n`, wrapping, with the subtraction on naturals. -/
theorem addrOfInt_pred_toNat (bus : BusWidth) (n : Nat) :
    (bus.addrOfInt ((n : Int) - 1)).toNat = (n + bus.size - 1) % bus.size := by
  have hpos := bus.size_pos
  have hcast : ((n + bus.size - 1 : Nat) : Int) = (n : Int) - 1 + bus.size := by omega
  rw [← Int.natCast_inj, addrOfInt_toNat, Int.natCast_mod, hcast, Int.add_emod_right]

/-- The execute phase of JSR pushes the address before `PC_next`, then jumps (R241). -/
theorem executed_jsr (a : Addr) (s : State) :
    executed (.jsr a) s = (pushAll (addressBytes s.cfg.bus
      (((pcNext (.jsr a) s).toNat + s.cfg.bus.size - 1) % s.cfg.bus.size)) s).setPc (s.addr a.toNat) := by
  have he : executed (.jsr a) s =
      (pushAddr (s.cfg.bus.addrOfInt (((pcNext (.jsr a) s).toNat : Int) - 1))
        (s.setPc (pcNext (.jsr a) s))).setPc (s.addr a.toNat) := rfl
  rw [he, pushAddr_eq, State.setPc_cfg, reverse_leBytes_eq_addressBytes, addrOfInt_pred_toNat, pushAll_setPc]
  rfl

theorem bytes_le_three (bus : BusWidth) : bus.bytes ≤ 3 := by cases bus <;> decide

/-- Settles O55: the form is the table's, and the execute phase is the pushes of an address and a jump. -/
theorem jsrPushesAndJumps : Obligations.JsrPushesAndJumps := by
  refine ⟨formsAre_of_perm (by decide), fun s a hf hw => exec_of_pushAll hf hw ?_ rfl (executed_jsr a s)⟩
  have := bytes_le_three s.cfg.bus
  rw [addressBytes_length]
  omega

/-! ## Break (R250, R265) -/

/-- The bytes of a break frame, in push order: the return address, then the status byte (R250). -/
def breakFrame (s : State) : List Byte :=
  addressBytes s.cfg.bus ((s.pc.toNat + s.cfg.brkPcOffset.toNat) % s.cfg.bus.size) ++ [statusByte s.flags s.running]

theorem breakFrame_length_le (s : State) : (breakFrame s).length ≤ 256 := by
  have := bytes_le_three s.cfg.bus
  rw [breakFrame, List.length_append, addressBytes_length, List.length_singleton]
  omega

/-- The state a break leaves before it may power off: its frame pushed, B set, PC from the vector (R265). -/
def breakTaken (s : State) : State :=
  ((pushAll (breakFrame s) s).setFlags { s.flags with b := true }).setPc
    (readAddr s.cfg.brkVec (pushAll (breakFrame s) s))

/-- The execute phase of BRK takes the break, with a frame that does not depend on `PC_next`, and powers off. -/
theorem executed_brk (s : State) : executed .brk s = powerOff (breakTaken s) := by
  have he : executed .brk s =
      powerOff (takeBreak (s.addr (s.pc.toNat + s.cfg.brkPcOffset.toNat)) (s.setPc (pcNext .brk s))) := rfl
  rw [he, takeBreak_eq, getPS_eq_statusByte, pushAll_setPc, State.addr_eq, BusWidth.addr_toNat,
    reverse_leBytes_eq_addressBytes]
  rfl

theorem powerOff_frame (s : State) : powerOff s = { s with running := (powerOff s).running } := by
  unfold powerOff
  split <;> rfl

/-- Settles O57: the form is the table's, and the execute phase is the frame's pushes, B, PC and the power-off. -/
theorem brkTakesTheBreak : Obligations.BrkTakesTheBreak := by
  refine ⟨formsAre_of_perm (by decide), fun s hf hw => ?_⟩
  refine ⟨retire 7 false (powerOff (breakTaken s)), by rw [exec_eq, executed_brk]; rfl, ?_, ?_⟩
  · rw [retire_frame, powerOff_frame, breakTaken, pushAll_frame]
    rfl
  · have hrun : (powerOff (breakTaken s)).running = (s.running && !s.cfg.brkHalts) := by
      simp [breakTaken]
    rw [← hrun]
    exact pushesBytes_retire hf hw (breakFrame_length_le s) (by simp [breakTaken]) (by simp [breakTaken])
      (by simp [breakTaken]) _ _

/-! ## There and back (R241, R242, R265, R266) -/

/-- On a writable stack the bytes pushed are popped again, the last one first (R61, R62). -/
theorem poppedByte_of_pushesBytes {s t : State} {vs : List Byte} {r : Bool} (h : PushesBytes s t vs r)
    (hc : t.cfg = s.cfg) (hw : StackWritable s) {k : Nat} (hk : k < vs.reverse.length) :
    poppedByte t (k + 1) = vs.reverse[k] := by
  obtain ⟨hsp, hbytes, -⟩ := h
  have hslot : t.sp + BitVec.ofNat 8 (k + 1) = s.sp - BitVec.ofNat 8 (vs.length - 1 - k) := by
    rw [List.length_reverse] at hk
    rw [hsp]
    bv_omega
  rw [poppedByte, hslot, State.addr, hc, List.getElem_reverse]
  exact hbytes _ _ (hw _)

/-- On a writable stack an address is popped as it was pushed, above the bytes `vs` pushed after it. -/
theorem poppedAddress_of_pushesBytes {s t : State} {v : Nat} {vs : List Byte} {r : Bool}
    (h : PushesBytes s t (addressBytes s.cfg.bus v ++ vs) r) (hc : t.cfg = s.cfg) (hw : StackWritable s) :
    poppedAddress t (vs.length + 1) = v % s.cfg.bus.size := by
  have hbytes : ((List.range t.cfg.bus.bytes).map fun j => poppedByte t (vs.length + 1 + j)) =
      leBytes s.cfg.bus.bytes v := by
    refine List.ext_getElem (by simp [hc]) fun j hj hj' => ?_
    rw [leBytes_length] at hj'
    rw [List.getElem_map, List.getElem_range, Nat.add_right_comm,
      poppedByte_of_pushesBytes h hc hw (by simp; omega)]
    simp [← reverse_leBytes_eq_addressBytes]
  rw [poppedAddress_eq_leNat, hbytes, leNat_leBytes, BusWidth.size_eq]

/-- The same with nothing pushed after the address. -/
theorem poppedAddress_of_pushed_address {s t : State} {v : Nat} {r : Bool}
    (h : PushesBytes s t (addressBytes s.cfg.bus v) r) (hc : t.cfg = s.cfg) (hw : StackWritable s) :
    poppedAddress t 1 = v % s.cfg.bus.size :=
  poppedAddress_of_pushesBytes (vs := []) (by rwa [List.append_nil]) hc hw

/-- On a writable stack no push faults (R56). -/
theorem no_fault_of_pushesBytes {s t : State} {vs : List Byte} {r : Bool} (h : PushesBytes s t vs r)
    (hw : StackWritable s) : t.fault = .none ∧ t.running = r := by
  obtain ⟨-, -, -, hnone, -⟩ := h
  exact hnone fun k _ => hw (s.sp - BitVec.ofNat 8 k)

/-- One past the address before a bus address is that address. -/
theorem addr_pred_succ (bus : BusWidth) {a : Addr} (ha : a.toNat < bus.size) :
    bus.addr ((a.toNat + bus.size - 1) % bus.size + 1) = a := by
  have hsucc : a.toNat + bus.size - 1 + 1 = a.toNat + bus.size := by have := bus.size_pos; omega
  rw [← bus.addr_of_lt a ha, BusWidth.addr_eq_addr, bus.addr_of_lt a ha, Nat.mod_add_mod, hsucc, Nat.add_mod_right]

/-- Settles O59: RTS pops the address JSR pushed, and adds the 1 that JSR took away. -/
theorem jsrThenRtsComesBack : Obligations.JsrThenRtsComesBack := by
  intro s a hf hw hstack
  obtain ⟨t, hjsr, hframe, hpush⟩ := jsrPushesAndJumps.2 s a hf hw
  have hc := exec_cfg hjsr
  have hflags : t.flags = s.flags := by rw [hframe]; rfl
  obtain ⟨hfault, hrun⟩ := no_fault_of_pushesBytes hpush hstack
  have hsp := hpush.1
  have hret := poppedAddress_of_pushed_address hpush hc hstack
  refine ⟨t, _, hjsr, rtsReturns.2 t hfault, ?_, ?_, hfault, hrun, hflags⟩
  · refine Eq.trans ?_ (addr_pred_succ s.cfg.bus (s.cfg.bus.addr_lt _))
    show t.cfg.bus.addr (poppedAddress t 1 + 1) = _
    rw [hc, hret, Nat.mod_mod]
  · show t.sp + BitVec.ofNat 8 t.cfg.bus.bytes = s.sp
    rw [hc, hsp, addressBytes_length, BitVec.sub_add_cancel]

/-- Settles O60: RTI pops the frame BRK pushed, and the flags of a status byte are those it was made of. -/
theorem brkThenRtiComesBack : Obligations.BrkThenRtiComesBack := by
  intro s hf hw hstack
  obtain ⟨t, hbrk, -, hpush⟩ := brkTakesTheBreak.2 s hf hw
  have hc := exec_cfg hbrk
  obtain ⟨hfault, hrun⟩ := no_fault_of_pushesBytes hpush hstack
  have hsp := hpush.1
  have hstatus : poppedByte t 1 = statusByte s.flags s.running := by
    rw [poppedByte_of_pushesBytes (k := 0) hpush hc hstack (by simp)]
    simp
  have hret : poppedAddress t 2 = _ :=
    poppedAddress_of_pushesBytes (vs := [statusByte s.flags s.running]) hpush hc hstack
  refine ⟨t, _, hbrk, rtiReturns.2 t hfault, ?_, ?_, ?_, hfault, hrun⟩
  · show statusFlags (poppedByte t 1) = s.flags
    rw [hstatus, ← getPS_eq_statusByte, ← ofByte_eq_statusFlags, ofByte_getPS]
  · show t.sp + BitVec.ofNat 8 (t.cfg.bus.bytes + 1) = s.sp
    rw [hc, hsp, List.length_append, addressBytes_length, List.length_singleton, BitVec.sub_add_cancel]
  · show t.cfg.bus.addr (poppedAddress t 2) = s.cfg.bus.addr (s.pc.toNat + s.cfg.brkPcOffset.toNat)
    rw [hc, BusWidth.addr_eq_addr, hret, Nat.mod_mod, Nat.mod_mod]

end Sys2Proof.Proofs
end

section
/-! SUPPORT. There is no trap, fault outcome or refusal on a running engine; the statements of 60_exceptions.md. -/

namespace Sys2Proof.Proofs

open Sys2Proof.Machine Sys2Proof.Claims

/-! ## Every instruction and every running engine completes (R263, R272) -/

/-- Settles O11: `exec_eq` names the next state, the retirement of what the instruction executed; a blocked write is
recorded in that state and does not take its place. -/
theorem everyInstructionCompletes : Obligations.EveryInstructionCompletes := fun i s =>
  ⟨retire i.baseCycles (taken i.mnemonic s) (executed i s), exec_eq i s⟩

/-- Settles O10: `exists_next_of_running`, whose two cases are a decoded instruction and an unrecognised byte. -/
theorem runningEngineAlwaysSteps : Obligations.RunningEngineAlwaysSteps :=
  fun _ hr => exists_next_of_running hr

end Sys2Proof.Proofs
end

section
/-! SUPPORT. What a byte reads as after `initialise`; the statements of 70_reset_and_hazards.md. -/

namespace Sys2Proof.Proofs

open Sys2Proof.Machine Sys2Proof.Claims

/-! ## Initialise (R291) -/

/-- The state lift of `Memory.read_zeroRange`: the range ends where the state's own `RAM_END` is (R291, D41). -/
theorem initialise_byteAt (s : State) (a : Addr) :
    (initialise s).byteAt a = if 0x0200 ≤ a.toNat ∧ a.toNat ≤ s.cfg.ramEnd then 0 else s.byteAt a :=
  Memory.read_zeroRange 0x0200 s.cfg.ramEnd s.mem a.toNat

/-- Settles O34: `initialise` is a write of the memory field alone, so registers and parameters stay by definition;
`initialise_byteAt` says what each byte reads as, and `initialise_wf` that dropping entries keeps the canonical form. -/
theorem initialiseZeroesRam : Obligations.InitialiseZeroesRam := by
  intro s
  refine ⟨?registers, initialise_byteAt s, initialise_wf s⟩
  case registers => rfl

end Sys2Proof.Proofs
end
